-- ==== Sys2Proof/Word.lean ====
section
/-! DEFINITION. The machine word and byte, and the plainest facts about their widths. -/

namespace Sys2Proof

/-- A register, a bus word or an engine register (R6, R398). -/
abbrev Word := BitVec 32

/-- One byte of a frame, a memory or an image (R11). -/
abbrev Byte := BitVec 8

end Sys2Proof
end

