-- ==== Sys2Proof/Syntax.lean ====
section
/-! DEFINITION. The commands: one constructor of `Instr` per row of spec/opcode_table.json, with the operands its rule
gives it. A command that is a register write carries the master that writes and the value written. -/

namespace Sys2Proof

/-- The masters of Table 14.1 (R435). -/
inductive Master where
  | strand (n : Fin 8)
  | tile (t : Fin 2)
  | hub
  | window
  | recorder
  | update
  | scrubber
  deriving DecidableEq, Repr

/-- What executes a ZIS instruction (R396). -/
inductive Engine where
  | strand (n : Fin 8)
  | tile (t : Fin 2)
  deriving DecidableEq, Repr

/-- The power domains of Table 1.8 (R48). -/
inductive Domain where
  | aon | tgrid | sup | tile0 | tile1 | hub | afe | nvm | seq | ifc
  deriving DecidableEq, Repr

/-- The two ends of a chain (R112). -/
inductive ChainEnd where
  | a | b
  deriving DecidableEq, Repr

/-- The lock registers the LOCK row names. -/
inductive LockReg where
  | tglock | syslock | glock | winlock | updlock | flock
  deriving DecidableEq, Repr

/-- The limit registers of R341. -/
inductive LimitReg where
  | ovlim | uvlim | oclim
  deriving DecidableEq, Repr

/-- The two words of a comparator's configuration (R343). -/
inductive CmpWord where
  | cfg | th
  deriving DecidableEq, Repr

/-- A guard of R401: always, or if p[k] is the value wanted. -/
inductive Guard where
  | always
  | when (p : Fin 4) (want : Bool)
  deriving DecidableEq, Repr

/-- The conditions of Table 13.5 that compare two values. -/
inductive Cond where
  | eq | ne | lt | ge | ltu | geu
  deriving DecidableEq, Repr

/-- The conditions of format B: a comparison, or a predicate (Table 13.5). -/
inductive BCond where
  | cmp (c : Cond) (ra rb : Fin 16)
  | bp (p : Fin 4)
  | bnp (p : Fin 4)
  deriving DecidableEq, Repr

/-- Access sizes of scalar and vector loop memory instructions (R416, R419). -/
inductive Size where
  | word | half | byte
  deriving DecidableEq, Repr

/-- The address operand of formats M, W and K: a base register, the L bit and an offset in bytes (R416). -/
structure LAddr where
  ga   : Fin 16
  l    : Bool
  off  : BitVec 11
  deriving DecidableEq, Repr

/-- Operand b of a vector operation: a vector or a general register (R420). -/
inductive VOperand where
  | vec (v : Fin 8)
  | reg (g : Fin 16)
  deriving DecidableEq, Repr

/-- The fields of a set-point link frame besides its opcode (Table 6.2). -/
structure SplFields where
  loop : Fin 4
  seq  : BitVec 2
  arg  : BitVec 24
  chk  : Word
  deriving DecidableEq, Repr

/-- One transfer of a PMBus command: a read, or a write of data bytes, and the PEC byte if one was sent (R513, R515). -/
inductive Xfer where
  | read
  | write (data : List Byte) (pec : Option Byte)
  deriving DecidableEq, Repr

/-- How one attempt of a host-bus controller transaction goes (R532, R533). -/
inductive Attempt where
  | runs
  | lost
  deriving DecidableEq, Repr

/-- What TWB1 finds on SDA before a START (R535): high, freed by the n-th recovery clock, or never freed. -/
inductive LocalSda where
  | high
  | freedAt (clock : Fin 9)
  | stuck
  deriving DecidableEq, Repr

/-- The commands, one constructor per row of spec/opcode_table.json, in the table's order. -/
inductive Instr where
  | registerWrite (m : Master) (addr : Nat) (size : Nat) (v : Word)
  | rcRead (m : Master) (addr : Nat)
  | lowHalfRead (m : Master) (addr : Nat)
  | crcInit (m : Master) (v : Word)
  | crcData (m : Master) (v : Word)
  | crcByte (m : Master) (v : Word)
  | crcStateLoad (m : Master) (v : Word)
  | lock (m : Master) (r : LockReg) (v : Word)
  | vertex
  | uplinkStart
  | uplinkDeadline
  | chord
  | pllLockLoss
  | pllLockHeld
  | tsyncEdge
  | ppsTimeout
  | commit (m : Master) (v : Word)
  | aonPowerOn (mv : Nat)
  | aonPowerOff (mv : Nat)
  | brownOut (mv : Nat)
  | vinLow (mv : Nat)
  | vinLowRecovery (mv : Nat)
  | powerFail (mv : Nat)
  | powerFailRecovery (mv : Nat)
  | vinWarning (low : Bool) (mv : Nat)
  | vioGoodChange (good : Bool)
  | resetPin
  | swrst (m : Master) (v : Word)
  | watchdogExpiry
  | wdtkick (m : Master) (v : Word)
  | drst (m : Master) (v : Word)
  | pwrctlWrite (m : Master) (v : Word)
  | domainPowered (d : Domain)
  | fuseLoadDone (differ : Bool)
  | powerAndLockDone (pllLocked : Bool)
  | bootRomCheckDone
  | loaderDone
  | warmRestartDone
  | bootdone (m : Master) (v : Word)
  | shipctl (m : Master) (v : Word)
  | wake
  | fltclr (m : Master) (v : Word)
  | hubEnable (m : Master) (v : Word)
  | uplinkFrameArrival (c : Fin 8) (e : ChainEnd) (bytes : List Byte)
  | receiverLockChange (c : Fin 8) (e : ChainEnd) (locked : Bool)
  | markArrival (c : Fin 8) (ui : Nat)
  | rngerr (c : Fin 8)
  | mailboxGo (m : Master) (v : Word)
  | slotcfgWrite (m : Master) (k : Fin 128) (v : Word)
  | chctlWrite (m : Master) (c : Fin 8) (v : Word)
  | unfold (m : Master) (c : Fin 8) (v : Word)
  | forcedFold (m : Master) (c : Fin 8) (v : Word)
  | holdreqWrite (m : Master) (v : Word)
  | loopEnable (m : Master) (n : Fin 4) (v : Word)
  | loopDisable (m : Master) (n : Fin 4) (v : Word)
  | lncfgWrite (m : Master) (n : Fin 4) (v : Word)
  | coefficientCommit (m : Master) (v : Word)
  | injectionStart (m : Master) (v : Word)
  | injectionStop (m : Master) (v : Word)
  | captureStart (m : Master) (v : Word)
  | swap (m : Master) (v : Word)
  | resume (m : Master) (v : Word)
  | arm (m : Master) (t : Fin 2) (v : Word)
  | loadCheckDone (t : Fin 2)
  | mirrorCheckDone
  | tileSelfDiagnosisFailure (t : Fin 2) (cause : Fin 8)
  | tileWatchdog (t : Fin 2)
  | canaryComplete (ticks : Nat)
  | evaluationWindowEnd
  | vcoreSettled
  | inhibitExpiry
  | dseedWrite (m : Master) (v : Word)
  | dtotWrite (m : Master) (n : Fin 4) (v : Word)
  | rotationDue
  | shdlyExpiry (n : Fin 4)
  | qAdjustCommit (m : Master) (v : Word)
  | evraise (m : Master) (v : Word)
  | fechipWrite (m : Master) (v : Word)
  | backEndChipUpdate
  | exttWrite (m : Master) (k : Fin 128) (v : Word)
  | exttValidExpiry (k : Fin 128)
  | brokenReadmit (m : Master) (i : Fin 4) (v : Word)
  | plimWrite (m : Master) (p : Fin 4) (v : Word)
  | dieConversion (s0 s1 : Int)
  | rorWindowEnd
  | runstart (m : Master) (v : Word)
  | runshut (m : Master) (v : Word)
  | stop (m : Master) (v : Word)
  | railcmd (m : Master) (v : Word)
  | railclr (m : Master) (v : Word)
  | syncset (m : Master) (v : Word)
  | stepMemoryWrite (m : Master) (i : Fin 512) (v : Word)
  | seqctlWrite (m : Master) (v : Word)
  | pgQualified (r : Fin 16)
  | riseWindowExpiry (r : Fin 16)
  | faultTimerEnd (r : Fin 16)
  | retryoffExpiry (r : Fin 16)
  | discharged (r : Fin 16)
  | dchtmoExpiry (r : Fin 16)
  | syncRise
  | syncTimeout
  | checkTimeout
  | waitExpiry
  | auxiliaryLost
  | auxiliaryGood
  | auxiliaryStale
  | seqEn
  | seqWait
  | seqCheck
  | seqJump
  | seqSync
  | seqEnd
  | add (e : Engine) (g : Guard) (rd ra rb : Fin 16)
  | sub (e : Engine) (g : Guard) (rd ra rb : Fin 16)
  | and (e : Engine) (g : Guard) (rd ra rb : Fin 16)
  | or (e : Engine) (g : Guard) (rd ra rb : Fin 16)
  | xor (e : Engine) (g : Guard) (rd ra rb : Fin 16)
  | shl (e : Engine) (g : Guard) (rd ra rb : Fin 16)
  | shr (e : Engine) (g : Guard) (rd ra rb : Fin 16)
  | sra (e : Engine) (g : Guard) (rd ra rb : Fin 16)
  | min (e : Engine) (g : Guard) (rd ra rb : Fin 16)
  | max (e : Engine) (g : Guard) (rd ra rb : Fin 16)
  | minu (e : Engine) (g : Guard) (rd ra rb : Fin 16)
  | maxu (e : Engine) (g : Guard) (rd ra rb : Fin 16)
  | mul (e : Engine) (g : Guard) (rd ra rb : Fin 16)
  | mulh (e : Engine) (g : Guard) (rd ra rb : Fin 16)
  | mulhu (e : Engine) (g : Guard) (rd ra rb : Fin 16)
  | div (e : Engine) (g : Guard) (rd ra rb : Fin 16)
  | divu (e : Engine) (g : Guard) (rd ra rb : Fin 16)
  | rem (e : Engine) (g : Guard) (rd ra rb : Fin 16)
  | remu (e : Engine) (g : Guard) (rd ra rb : Fin 16)
  | qadd (e : Engine) (g : Guard) (rd ra rb : Fin 16)
  | qsub (e : Engine) (g : Guard) (rd ra rb : Fin 16)
  | qmul (e : Engine) (g : Guard) (rd ra rb : Fin 16) (sh : BitVec 6)
  | qabs (e : Engine) (g : Guard) (rd ra : Fin 16)
  | qneg (e : Engine) (g : Guard) (rd ra : Fin 16)
  | addi (e : Engine) (g : Guard) (rd ra : Fin 16) (imm : BitVec 14)
  | andi (e : Engine) (g : Guard) (rd ra : Fin 16) (imm : BitVec 14)
  | ori (e : Engine) (g : Guard) (rd ra : Fin 16) (imm : BitVec 14)
  | xori (e : Engine) (g : Guard) (rd ra : Fin 16) (imm : BitVec 14)
  | shli (e : Engine) (g : Guard) (rd ra : Fin 16) (sh : BitVec 5)
  | shri (e : Engine) (g : Guard) (rd ra : Fin 16) (sh : BitVec 5)
  | srai (e : Engine) (g : Guard) (rd ra : Fin 16) (sh : BitVec 5)
  | mini (e : Engine) (g : Guard) (rd ra : Fin 16) (imm : BitVec 14)
  | maxi (e : Engine) (g : Guard) (rd ra : Fin 16) (imm : BitVec 14)
  | lui (e : Engine) (g : Guard) (rd : Fin 16) (imm : BitVec 18)
  | cmp (e : Engine) (g : Guard) (c : Cond) (pd : Fin 4) (ra rb : Fin 16)
  | cmpi (e : Engine) (g : Guard) (c : Cond) (pd : Fin 4) (ra : Fin 16) (imm : BitVec 13)
  | pand (e : Engine) (g : Guard) (pd ps pt : Fin 4)
  | por (e : Engine) (g : Guard) (pd ps pt : Fin 4)
  | pxor (e : Engine) (g : Guard) (pd ps pt : Fin 4)
  | pandn (e : Engine) (g : Guard) (pd ps pt : Fin 4)
  | ldw (n : Fin 8) (g : Guard) (rd ra : Fin 16) (imm : BitVec 14)
  | ldh (n : Fin 8) (g : Guard) (rd ra : Fin 16) (imm : BitVec 14)
  | ldhu (n : Fin 8) (g : Guard) (rd ra : Fin 16) (imm : BitVec 14)
  | ldb (n : Fin 8) (g : Guard) (rd ra : Fin 16) (imm : BitVec 14)
  | ldbu (n : Fin 8) (g : Guard) (rd ra : Fin 16) (imm : BitVec 14)
  | stw (n : Fin 8) (g : Guard) (rs ra : Fin 16) (imm : BitVec 14)
  | sth (n : Fin 8) (g : Guard) (rs ra : Fin 16) (imm : BitVec 14)
  | stb (n : Fin 8) (g : Guard) (rs ra : Fin 16) (imm : BitVec 14)
  | swapw (n : Fin 8) (g : Guard) (rd ra rb : Fin 16)
  | casw (n : Fin 8) (g : Guard) (rd ra rb : Fin 16)
  | b (n : Fin 8) (c : BCond) (off : BitVec 15)
  | jal (n : Fin 8) (off : BitVec 26)
  | jalr (n : Fin 8) (rd ra : Fin 16) (imm : BitVec 14)
  | sysc (n : Fin 8) (imm : BitVec 10)
  | brk (n : Fin 8) (imm : BitVec 10)
  | eret (n : Fin 8)
  | crd (n : Fin 8) (rd cn : Fin 16)
  | cwr (n : Fin 8) (cn ra : Fin 16)
  | wfe (n : Fin 8)
  | yield (n : Fin 8)
  | fence (n : Fin 8)
  | ldq (t : Fin 2) (g : Guard) (sz : Size) (rd : Fin 16) (a : LAddr)
  | ldqU (t : Fin 2) (g : Guard) (sz : Size) (rd : Fin 16) (a : LAddr)
  | ald (t : Fin 2) (g : Guard) (ad : Fin 4) (a : LAddr)
  | stq (t : Fin 2) (g : Guard) (sz : Size) (rs : Fin 16) (a : LAddr)
  | ast (t : Fin 2) (g : Guard) (as : Fin 4) (a : LAddr)
  | mac (t : Fin 2) (g : Guard) (ad : Fin 4) (ra rb : Fin 16) (sh : BitVec 6)
  | msu (t : Fin 2) (g : Guard) (ad : Fin 4) (ra rb : Fin 16) (sh : BitVec 6)
  | macx (t : Fin 2) (g : Guard) (ad : Fin 4) (ra rb gs : Fin 16)
  | msux (t : Fin 2) (g : Guard) (ad : Fin 4) (ra rb gs : Fin 16)
  | acr (t : Fin 2) (g : Guard) (rd : Fin 16) (ad : Fin 4) (sh : BitVec 6)
  | acw (t : Fin 2) (g : Guard) (ad : Fin 4) (ra : Fin 16) (sh : BitVec 6)
  | acadd (t : Fin 2) (g : Guard) (ad : Fin 4) (ra : Fin 16) (sh : BitVec 6)
  | acacc (t : Fin 2) (g : Guard) (ad ab : Fin 4) (sh : BitVec 6)
  | achi (t : Fin 2) (g : Guard) (rd : Fin 16) (ad : Fin 4)
  | aclo (t : Fin 2) (g : Guard) (rd : Fin 16) (ad : Fin 4)
  | acclr (t : Fin 2) (g : Guard) (ad : Fin 4)
  | adiv (t : Fin 2) (g : Guard) (rd : Fin 16) (ad : Fin 4) (rb : Fin 16)
  | rpt (t : Fin 2) (nm1 : BitVec 8) (lenm1 : BitVec 6) (gi : Fin 16) (inc : BitVec 8)
  | endLoop (t : Fin 2)
  | vrange (t : Fin 2) (g0 nm1 : Fin 16)
  | vld (t : Fin 2) (sz : Size) (sgn : Bool) (m : Bool) (st : Fin 6) (v : Fin 8) (a : LAddr)
  | vst (t : Fin 2) (sz : Size) (m : Bool) (st : Fin 6) (v : Fin 8) (a : LAddr)
  | vadd (t : Fin 2) (m : Bool) (vd va : Fin 8) (b : VOperand)
  | vsub (t : Fin 2) (m : Bool) (vd va : Fin 8) (b : VOperand)
  | vmul (t : Fin 2) (m : Bool) (vd va : Fin 8) (b : VOperand) (sh : BitVec 6)
  | vmin (t : Fin 2) (m : Bool) (vd va : Fin 8) (b : VOperand)
  | vmax (t : Fin 2) (m : Bool) (vd va : Fin 8) (b : VOperand)
  | vand (t : Fin 2) (m : Bool) (vd va : Fin 8) (b : VOperand)
  | vor (t : Fin 2) (m : Bool) (vd va : Fin 8) (b : VOperand)
  | vxor (t : Fin 2) (m : Bool) (vd va : Fin 8) (b : VOperand)
  | vsh (t : Fin 2) (m : Bool) (vd va : Fin 8) (sh : BitVec 6)
  | vmuldiv (t : Fin 2) (m : Bool) (vd va : Fin 8) (gb gc : Fin 16)
  | vsel (t : Fin 2) (vd va : Fin 8) (b : VOperand)
  | vidx (t : Fin 2) (m : Bool) (vd : Fin 8)
  | vscan (t : Fin 2) (m : Bool) (vd va : Fin 8)
  | vcmp (t : Fin 2) (c : Cond) (m : Bool) (va : Fin 8) (b : VOperand)
  | vsum (t : Fin 2) (m : Bool) (ad : Fin 4) (va : Fin 8) (sh : BitVec 6)
  | vcnt (t : Fin 2) (m : Bool) (ad : Fin 4)
  | vmaxr (t : Fin 2) (m : Bool) (ad : Fin 4) (va : Fin 8)
  | vminr (t : Fin 2) (m : Bool) (ad : Fin 4) (va : Fin 8)
  | vget (t : Fin 2) (gb : Fin 16) (va : Fin 8) (gi : Fin 16)
  | vput (t : Fin 2) (vd : Fin 8) (gi gb : Fin 16)
  | vmld (t : Fin 2) (a : LAddr)
  | vmst (t : Fin 2) (a : LAddr)
  | vmand (t : Fin 2) (a : LAddr)
  | vmor (t : Fin 2) (a : LAddr)
  | vmnot (t : Fin 2)
  | vmall (t : Fin 2)
  | vmnone (t : Fin 2)
  | start (m : Master) (v : Word)
  | strandStop (m : Master) (v : Word)
  | quantumExpiry
  | starvationPromotion (n : Fin 8)
  | swev (m : Master) (v : Word)
  | evqpop (m : Master) (v : Word)
  | lostClear (m : Master) (v : Word)
  | inputQualified (i : Fin 32) (level : Bool) (edges : Nat)
  | toggleWindowEnd (i : Fin 32) (edges : Nat)
  | stuckExpiry (i : Fin 32)
  | incfgWrite (m : Master) (i : Fin 32) (v : Word)
  | pmonEnable (m : Master) (v : Word)
  | pmonClear (m : Master) (v : Word)
  | cntcfgWrite (m : Master) (n : Fin 8) (v : Word)
  | scrubStep
  | retire (m : Master) (i : Fin 8) (v : Word)
  | flush (m : Master) (v : Word)
  | erase (m : Master) (v : Word)
  | flashOperationDone
  | chkctlWrite (m : Master) (v : Word)
  | logpop (m : Master) (v : Word)
  | recorderFlushRequest (m : Master) (v : Word)
  | flushTimer
  | recordWritten (ok : Bool)
  | flushDone
  | sectorEraseDone
  | recorderStart
  | freezeWrite (m : Master) (v : Word)
  | frzmaxExpiry
  | winRead (m : Master) (view : Fin 2)
  | snapshotDone
  | snapdataRead (m : Master)
  | conversionComplete (c : Fin 2) (code : BitVec 16)
  | referenceSettled
  | referenceCheck (inRange : Bool)
  | adcrefWrite (m : Master) (v : Word)
  | injreq (m : Master) (v : Word)
  | adccal (m : Master) (v : Word)
  | calibrationStepDone (c : Fin 2)
  | calibrationDone (c : Fin 2) (offset gain : BitVec 16)
  | regularPassStart (c : Fin 2)
  | rseqWrite (m : Master) (c : Fin 2) (w : Fin 5) (v : Word)
  | connect (m : Master) (v : Word)
  | disconnect (m : Master) (v : Word)
  | leaktElapsed
  | pretmoElapsed
  | pretElapsed
  | ramptElapsed
  | ramptmoElapsed
  | confbChange (i : Fin 2) (closed : Bool)
  | condlyElapsed
  | contElapsed (i : Fin 2)
  | comparatorQualified (n : Fin 8) (outside : Bool)
  | extTrip
  | gateFlt (low : Bool)
  | senseTimeout
  | causeclr (m : Master) (v : Word)
  | cmpConfigWrite (m : Master) (n : Fin 8) (w : CmpWord) (v : Word)
  | limitWrite (m : Master) (r : LimitReg) (v : Word)
  | eldcmt (m : Master) (v : Word)
  | transactionAbandoned
  | nop (f : SplFields)
  | goal (f : SplFields)
  | notrd (f : SplFields)
  | measrd (f : SplFields)
  | sync (f : SplFields)
  | spalertPulse
  | nqclr (m : Master) (v : Word)
  | splEnable (m : Master) (v : Word)
  | page (x : Xfer)
  | operation (x : Xfer)
  | clearFaults (x : Xfer)
  | writeProtect (x : Xfer)
  | capability (x : Xfer)
  | voutMode (x : Xfer)
  | voutCommand (x : Xfer)
  | statusByte (x : Xfer)
  | statusWord (x : Xfer)
  | statusCml (x : Xfer)
  | statusMfrSpecific (x : Xfer)
  | readVin (x : Xfer)
  | readVout (x : Xfer)
  | readIout (x : Xfer)
  | readTemperature1 (x : Xfer)
  | readPout (x : Xfer)
  | pmbusRevision (x : Xfer)
  | mfrId (x : Xfer)
  | mfrModel (x : Xfer)
  | mfrRevision (x : Xfer)
  | mfrWinAddr (x : Xfer)
  | mfrWinData (x : Xfer)
  | mfrRecCursor (x : Xfer)
  | mfrRecRead (x : Xfer)
  | mfrRecFreeze (x : Xfer)
  | mfrUpdCtrl (x : Xfer)
  | mfrUpdData (x : Xfer)
  | mfrAlertEvents (x : Xfer)
  | mfrReqEvents (x : Xfer)
  | mfrEvseq (x : Xfer)
  | alertResponse (won : Bool) (raisedMeanwhile : Bool)
  | requestResponse (won : Bool) (raisedMeanwhile : Bool)
  | sleep
  | sclTimeout
  | sdaTimeout
  | inBandRequestPulse (collides : Bool)
  | hcmdpop (m : Master) (v : Word)
  | tlmrdy (m : Master) (v : Word)
  | controllerGo (m : Master) (v : Word) (a : Attempt)
  | backoffExpiry (a : Attempt)
  | controllerDone (nacked : Bool)
  | localTransferGo (m : Master) (v : Word) (sda : LocalSda)
  | localTransferDone (nacked : Bool) (bytes : List Byte) (pec : Byte)
  | localSclTimeout
  | begin (m : Master) (v : Word)
  | activate (m : Master) (v : Word)
  | abort (m : Master) (v : Word)
  | plansgo (m : Master) (v : Word)
  | confirm (m : Master) (v : Word)
  | rcvreq (m : Master) (v : Word)
  | migdone (m : Master) (v : Word)
  | trialarm (m : Master) (v : Word)
  | upddataWrite (m : Master) (v : Word)
  | headerTestDone
  | updateEraseDone
  | endCheckDone
  | updtimeExpiry
  | trialExpiry
  | socmeanStale
  | prog (m : Master) (v : Word)
  | fuseProgramDone (unblown : Word)
  | vinLowRising (mv : Nat)
  | resetRelease
  | downlinkEndBArrival (c : Fin 8) (bytes : List Byte)
  | syncQualifiedLow
  | syncPulseTimer
  | wakeNack
  | unsupportedCommand (code : Byte) (x : Xfer)
  | reservedOp (op : BitVec 4) (f : SplFields)
  | reservedEncoding (e : Engine) (w : Word)
  | reservedStepWord
  deriving DecidableEq, Repr

end Sys2Proof
end

