-- ==== Sys2Proof/Decode.lean ====
section
/-! DEFINITION. Words and commands. No row of the opcode table gives bits, so a table word spells no command. The ZIS
encodings of the instruction-set chapter (R396 to R428) are decoded and encoded here, for the rows that execute a ZIS
instruction. -/

namespace Sys2Proof

/-- The command that a word spells by the table's bits: the table gives no row any bits. -/
def decodeTableWord (_nbits _w : Nat) : Option Instr := none

/-! Fields of a ZIS word (Table 13.4). -/

/-- The field of `len` bits at bit `lo` of a word. -/
def zfld (w : Word) (lo len : Nat) : Nat := w.toNat / 2 ^ lo % 2 ^ len

/-- A four-bit register field. -/
def zreg (w : Word) (lo : Nat) : Fin 16 := Fin.ofNat 16 (zfld w lo 4)

/-- A two-bit field that names a predicate or an accumulator. -/
def zsel (w : Word) (lo : Nat) : Fin 4 := Fin.ofNat 4 (zfld w lo 2)

/-- A three-bit field that names a vector. -/
def zvec (w : Word) (lo : Nat) : Fin 8 := Fin.ofNat 8 (zfld w lo 3)

/-- A field as a bit vector. -/
def zbits (w : Word) (lo len : Nat) : BitVec len := BitVec.ofNat len (zfld w lo len)

/-- One bit. -/
def zbit (w : Word) (i : Nat) : Bool := zfld w i 1 == 1

/-- The guard in bits [3:0]: with [3] = 0 the bits [2:0] are 0 (R401). -/
def zguard (w : Word) : Option Guard :=
  if zfld w 3 1 = 1 then some (.when (zsel w 0) (zfld w 2 1 == 0))
  else if zfld w 0 3 = 0 then some .always
  else none

/-- Conditions 0 to 5 of Table 13.5. -/
def zcond : Nat → Option Cond
  | 0 => some .eq | 1 => some .ne | 2 => some .lt | 3 => some .ge | 4 => some .ltu | 5 => some .geu | _ => none

/-- Sizes 0 to 2 (R416, R419). -/
def zsize : Nat → Option Size
  | 0 => some .word | 1 => some .half | 2 => some .byte | _ => none

/-- Bytes of a size. -/
def Size.bytes : Size → Nat
  | .word => 4 | .half => 2 | .byte => 1

/-- Operand b of a vector operation: g[vb] when S = 1, else vector vb with vb[3] = 0 (R420). -/
def zvop (w : Word) : Option VOperand :=
  if zbit w 15 then some (.reg (zreg w 16))
  else if zfld w 19 1 = 0 then some (.vec (zvec w 16))
  else none

/-- The address operand of format M. -/
def zaddrM (w : Word) : LAddr := ⟨zreg w 18, zbit w 6, zbits w 7 11⟩

/-- The address operand of format W. -/
def zaddrW (w : Word) : LAddr := ⟨zreg w 19, zbit w 12, zbits w 0 11⟩

/-- The address operand of format K. -/
def zaddrK (w : Word) : LAddr := ⟨zreg w 19, zbit w 18, zbits w 7 11⟩

/-- Keep a decoded instruction only if its must-be-zero fields are 0 and its guard is legal. -/
def zwith (ok : Bool) (g : Option Guard) (f : Guard → Instr) : Option Instr := if ok then g.map f else none

/-- Keep a decoded instruction without a guard only if its must-be-zero fields are 0. -/
def zonly (ok : Bool) (i : Instr) : Option Instr := if ok then some i else none

/-! Decoding, major by major. -/

/-- Major 0x00 (Table 13.6). -/
def zdec00 (e : Engine) (w : Word) : Option Instr :=
  let rd := zreg w 22
  let ra := zreg w 18
  let rb := zreg w 14
  let k (f : Engine → Guard → Fin 16 → Fin 16 → Fin 16 → Instr) := zwith (zfld w 8 6 == 0) (zguard w) fun g => f e g rd ra rb
  match zfld w 4 4 with
  | 0 => k .add
  | 1 => k .sub
  | 2 => k .and
  | 3 => k .or
  | 4 => k .xor
  | 5 => k .shl
  | 6 => k .shr
  | 7 => k .sra
  | 8 => k .min
  | 9 => k .max
  | 10 => k .minu
  | 11 => k .maxu
  | _ => none

/-- Major 0x01 (Table 13.7). -/
def zdec01 (e : Engine) (w : Word) : Option Instr :=
  let rd := zreg w 22
  let ra := zreg w 18
  let rb := zreg w 14
  let z := zfld w 8 6 == 0
  let k (f : Engine → Guard → Fin 16 → Fin 16 → Fin 16 → Instr) := zwith z (zguard w) fun g => f e g rd ra rb
  match zfld w 4 4 with
  | 0 => k .mul
  | 1 => k .mulh
  | 2 => k .mulhu
  | 3 => k .div
  | 4 => k .divu
  | 5 => k .rem
  | 6 => k .remu
  | 7 => k .qadd
  | 8 => k .qsub
  | 9 => (zguard w).map fun g => .qmul e g rd ra rb (zbits w 8 6)
  | 10 => zwith (z && zfld w 14 4 == 0) (zguard w) fun g => .qabs e g rd ra
  | 11 => zwith (z && zfld w 14 4 == 0) (zguard w) fun g => .qneg e g rd ra
  | _ => none

/-- Majors 0x02 to 0x0E (Tables 13.8 and 13.9). -/
def zdecImm (e : Engine) (w : Word) : Option Instr :=
  let rd := zreg w 22
  let ra := zreg w 18
  let imm := zbits w 4 14
  let z := zfld w 9 9 == 0
  match zfld w 26 6 with
  | 2 => (zguard w).map fun g => .addi e g rd ra imm
  | 3 => (zguard w).map fun g => .andi e g rd ra imm
  | 4 => (zguard w).map fun g => .ori e g rd ra imm
  | 5 => (zguard w).map fun g => .xori e g rd ra imm
  | 6 => zwith z (zguard w) fun g => .shli e g rd ra (zbits w 4 5)
  | 7 => zwith z (zguard w) fun g => .shri e g rd ra (zbits w 4 5)
  | 8 => zwith z (zguard w) fun g => .srai e g rd ra (zbits w 4 5)
  | 9 => (zguard w).map fun g => .mini e g rd ra imm
  | 10 => (zguard w).map fun g => .maxi e g rd ra imm
  | 11 => (zguard w).map fun g => .lui e g rd (zbits w 4 18)
  | 12 => zwith (zfld w 22 2 == 0 && zfld w 4 7 == 0) (zguard w) (fun g =>
      Instr.cmp e g ((zcond (zfld w 11 3)).getD .eq) (zsel w 24) (zreg w 18) (zreg w 14)) |>.filter
        fun _ => (zcond (zfld w 11 3)).isSome
  | 13 => ((zguard w).map fun g =>
      Instr.cmpi e g ((zcond (zfld w 21 3)).getD .eq) (zsel w 24) (zreg w 17) (zbits w 4 13)).filter
        fun _ => (zcond (zfld w 21 3)).isSome
  | 14 =>
    let z := zfld w 4 14 == 0
    let k (f : Engine → Guard → Fin 4 → Fin 4 → Fin 4 → Instr) :=
      zwith z (zguard w) fun g => f e g (zsel w 24) (zsel w 20) (zsel w 18)
    match zfld w 22 2 with
    | 0 => k .pand
    | 1 => k .por
    | 2 => k .pxor
    | _ => k .pandn
  | _ => none

/-- Majors 0x10 to 0x1C, for a strand (Tables 13.10 to 13.12). -/
def zdecSup (n : Fin 8) (w : Word) : Option Instr :=
  let rd := zreg w 22
  let ra := zreg w 18
  let rb := zreg w 14
  let imm := zbits w 4 14
  let k (f : Fin 8 → Guard → Fin 16 → Fin 16 → BitVec 14 → Instr) := (zguard w).map fun g => f n g rd ra imm
  match zfld w 26 6 with
  | 16 => k .ldw
  | 17 => k .ldh
  | 18 => k .ldhu
  | 19 => k .ldb
  | 20 => k .ldbu
  | 21 => k .stw
  | 22 => k .sth
  | 23 => k .stb
  | 24 =>
    match zfld w 4 10 with
    | 0 => (zguard w).map fun g => .swapw n g rd ra rb
    | 1 => (zguard w).map fun g => .casw n g rd ra rb
    | _ => none
  | 25 =>
    let off := zbits w 0 15
    match zcond (zfld w 15 3), zfld w 15 3 with
    | some c, _ => some (.b n (.cmp c rd ra) off)
    | none, 6 => zonly (zfld w 18 4 == 0) (.b n (.bp (zsel w 22)) off)
    | none, _ => zonly (zfld w 18 4 == 0) (.b n (.bnp (zsel w 22)) off)
  | 26 => some (.jal n (zbits w 0 26))
  | 27 => zonly (zfld w 0 4 == 0) (.jalr n rd ra imm)
  | 28 =>
    let imm := zbits w 4 10
    let cn := rb
    let noRd := zfld w 22 4 == 0
    let noRa := zfld w 18 4 == 0
    let noCn := zfld w 14 4 == 0
    let noImm := zfld w 4 10 == 0
    match zfld w 0 4 with
    | 0 => zonly (noRd && noRa && noCn) (.sysc n imm)
    | 1 => zonly (noRd && noRa && noCn) (.brk n imm)
    | 2 => zonly (noRd && noRa && noCn && noImm) (.eret n)
    | 3 => zonly (noRa && noImm && zfld w 14 4 < 8) (.crd n rd cn)
    | 4 => zonly (noRd && noImm && zfld w 14 4 < 8) (.cwr n cn ra)
    | 5 => zonly (noRd && noRa && noCn && noImm) (.wfe n)
    | 6 => zonly (noRd && noRa && noCn && noImm) (.yield n)
    | 7 => zonly (noRd && noRa && noCn && noImm) (.fence n)
    | _ => none
  | _ => none

/-- Major 0x23, format X (Table 13.16): the fields a func does not use are 0. -/
def zdecAcc (t : Fin 2) (w : Word) : Option Instr :=
  let ad := zsel w 24
  let ra := zreg w 20
  let rb := zreg w 16
  let sh := zbits w 10 6
  let noRa := zfld w 20 4 == 0
  let noRb := zfld w 16 4 == 0
  let noSh := zfld w 10 6 == 0
  let gs := zreg w 10
  let noHi := zfld w 14 2 == 0
  let g := zguard w
  match zfld w 4 6 with
  | 0 => zwith true g fun g => .mac t g ad ra rb sh
  | 1 => zwith true g fun g => .msu t g ad ra rb sh
  | 2 => zwith noHi g fun g => .macx t g ad ra rb gs
  | 3 => zwith noHi g fun g => .msux t g ad ra rb gs
  | 4 => zwith noRb g fun g => .acr t g ra ad sh
  | 5 => zwith noRb g fun g => .acw t g ad ra sh
  | 6 => zwith noRb g fun g => .acadd t g ad ra sh
  | 7 => zwith (noRa && zfld w 18 2 == 0) g fun g => .acacc t g ad (zsel w 16) sh
  | 8 => zwith (noRb && noSh) g fun g => .achi t g ra ad
  | 9 => zwith (noRb && noSh) g fun g => .aclo t g ra ad
  | 10 => zwith (noRa && noRb && noSh) g fun g => .acclr t g ad
  | 11 => zwith noSh g fun g => .adiv t g ra ad rb
  | _ => none

/-- Majors 0x28 and 0x29, format W (R419): a stride code above 5 or smaller than the size is reserved. -/
def zdecVmem (t : Fin 2) (w : Word) (load : Bool) : Option Instr :=
  let st := zfld w 13 3
  let sgn := zbit w 16
  let m := zbit w 11
  let v := zvec w 23
  match zsize (zfld w 17 2) with
  | none => none
  | some sz =>
    if 5 < st || 2 ^ st < sz.bytes then none
    else if load then zonly (!(sgn && sz = .word)) (.vld t sz sgn m (Fin.ofNat 6 st) v (zaddrW w))
    else zonly (!sgn) (.vst t sz m (Fin.ofNat 6 st) v (zaddrW w))

/-- Major 0x2A, format V (Table 13.19). -/
def zdecVop (t : Fin 2) (w : Word) : Option Instr :=
  let vd := zvec w 23
  let va := zvec w 20
  let m := zbit w 14
  let s := zbit w 15
  let sh := zbits w 8 6
  let noVd := zfld w 23 3 == 0
  let noVd2 := zfld w 25 1 == 0
  let noVa := zfld w 20 3 == 0
  let noVb := zfld w 16 4 == 0
  let ad := zsel w 23
  let gi := zreg w 8
  if zfld w 0 2 ≠ 0 then none else
  match zfld w 2 6 with
  | 0 => (zvop w).map fun b => .vadd t m vd va b
  | 1 => (zvop w).map fun b => .vsub t m vd va b
  | 2 => (zvop w).map fun b => .vmul t m vd va b sh
  | 3 => (zvop w).map fun b => .vmin t m vd va b
  | 4 => (zvop w).map fun b => .vmax t m vd va b
  | 5 => (zvop w).map fun b => .vand t m vd va b
  | 6 => (zvop w).map fun b => .vor t m vd va b
  | 7 => (zvop w).map fun b => .vxor t m vd va b
  | 8 => zonly (noVb && !s) (.vsh t m vd va sh)
  | 9 => zonly (s && zfld w 12 2 == 0) (.vmuldiv t m vd va (zreg w 16) gi)
  | 10 => if m then none else (zvop w).map fun b => .vsel t vd va b
  | 11 => zonly (noVa && noVb && !s) (.vidx t m vd)
  | 12 => some (.vscan t m vd va)
  | 22 => zonly noVd2 (.vsum t m ad va sh)
  | 23 => zonly noVd2 (.vcnt t m ad)
  | 24 => zonly noVd2 (.vmaxr t m ad va)
  | 25 => zonly noVd2 (.vminr t m ad va)
  | 26 => zonly s (.vget t (zreg w 16) va gi)
  | 27 => zonly s (.vput t vd gi (zreg w 16))
  | f =>
    if f < 16 then none else
    match zcond (f - 16) with
    | some c => if noVd then (zvop w).map fun b => .vcmp t c m va b else none
    | none => none

/-- Majors 0x20 to 0x2B, for a loop engine (Tables 13.15 to 13.20). -/
def zdecLoop (t : Fin 2) (w : Word) : Option Instr :=
  let r := zreg w 22
  let a := zaddrM w
  let g := zguard w
  let sz := zfld w 4 2
  let acc := zfld w 24 2 == 0
  match zfld w 26 6 with
  | 32 =>
    match zsize sz with
    | some s => zwith true g fun g => .ldq t g s r a
    | none => zwith acc g fun g => .ald t g (zsel w 22) a
  | 33 =>
    match sz with
    | 1 => zwith true g fun g => .ldqU t g .half r a
    | 2 => zwith true g fun g => .ldqU t g .byte r a
    | _ => none
  | 34 =>
    match zsize sz with
    | some s => zwith true g fun g => .stq t g s r a
    | none => zwith acc g fun g => .ast t g (zsel w 22) a
  | 35 => zdecAcc t w
  | 36 => some (.rpt t (zbits w 18 8) (zbits w 12 6) (zreg w 8) (zbits w 0 8))
  | 37 => zonly (zfld w 0 26 == 0) (.endLoop t)
  | 38 => zonly (zfld w 0 18 == 0) (.vrange t (zreg w 22) (zreg w 18))
  | 40 => zdecVmem t w true
  | 41 => zdecVmem t w false
  | 42 => zdecVop t w
  | 43 =>
    let z := zfld w 0 7 == 0
    let bare := zfld w 0 23 == 0
    match zfld w 23 3 with
    | 0 => zonly z (.vmld t (zaddrK w))
    | 1 => zonly z (.vmst t (zaddrK w))
    | 2 => zonly z (.vmand t (zaddrK w))
    | 3 => zonly z (.vmor t (zaddrK w))
    | 4 => zonly bare (.vmnot t)
    | 5 => zonly bare (.vmall t)
    | 6 => zonly bare (.vmnone t)
    | _ => none
  | _ => none

/-- The instruction that an engine reads from a word; none where the word is reserved in its profile (R397, R403). -/
def zisDecode (e : Engine) (w : Word) : Option Instr :=
  let major := zfld w 26 6
  if major = 0 then zdec00 e w
  else if major = 1 then zdec01 e w
  else if major < 16 then zdecImm e w
  else
    match e with
    | .strand n => if major < 32 then zdecSup n w else none
    | .tile t => if 32 ≤ major then zdecLoop t w else none

/-! Encoding, from the same tables. -/

/-- The bits of a guard (R401). -/
def Guard.bits : Guard → Nat
  | .always => 0
  | .when p want => 8 + (if want then 0 else 4) + p.val

/-- The code of a condition (Table 13.5). -/
def Cond.code : Cond → Nat
  | .eq => 0 | .ne => 1 | .lt => 2 | .ge => 3 | .ltu => 4 | .geu => 5

/-- The code of a size (R416). -/
def Size.code : Size → Nat
  | .word => 0 | .half => 1 | .byte => 2

/-- A flag as a bit. -/
def bit01 (b : Bool) : Nat := if b then 1 else 0

/-- Format A. -/
def encA (major : Nat) (rd ra rb : Fin 16) (sh func : Nat) (g : Guard) : Word :=
  BitVec.ofNat 32 (major * 2 ^ 26 + rd.val * 2 ^ 22 + ra.val * 2 ^ 18 + rb.val * 2 ^ 14 + sh * 2 ^ 8 + func * 2 ^ 4 + g.bits)

/-- Formats I and S. -/
def encI (major : Nat) (rd ra : Fin 16) (imm : Nat) (g : Guard) : Word :=
  BitVec.ofNat 32 (major * 2 ^ 26 + rd.val * 2 ^ 22 + ra.val * 2 ^ 18 + imm * 2 ^ 4 + g.bits)

/-- Format PL. -/
def encPL (op : Nat) (pd ps pt : Fin 4) (g : Guard) : Word :=
  BitVec.ofNat 32 (14 * 2 ^ 26 + pd.val * 2 ^ 24 + op * 2 ^ 22 + ps.val * 2 ^ 20 + pt.val * 2 ^ 18 + g.bits)

/-- Format B. -/
def encB (c : BCond) (off : BitVec 15) : Word :=
  match c with
  | .cmp c ra rb =>
    BitVec.ofNat 32 (25 * 2 ^ 26 + ra.val * 2 ^ 22 + rb.val * 2 ^ 18 + c.code * 2 ^ 15 + off.toNat)
  | .bp p => BitVec.ofNat 32 (25 * 2 ^ 26 + p.val * 2 ^ 22 + 6 * 2 ^ 15 + off.toNat)
  | .bnp p => BitVec.ofNat 32 (25 * 2 ^ 26 + p.val * 2 ^ 22 + 7 * 2 ^ 15 + off.toNat)

/-- Format Y. -/
def encY (rd ra cn : Nat) (imm : Nat) (func : Nat) : Word :=
  BitVec.ofNat 32 (28 * 2 ^ 26 + rd * 2 ^ 22 + ra * 2 ^ 18 + cn * 2 ^ 14 + imm * 2 ^ 4 + func)

/-- Format M. -/
def encM (major r : Nat) (a : LAddr) (sz : Nat) (g : Guard) : Word :=
  BitVec.ofNat 32 (major * 2 ^ 26 + r * 2 ^ 22 + a.ga.val * 2 ^ 18 + a.off.toNat * 2 ^ 7 + bit01 a.l * 2 ^ 6 + sz * 2 ^ 4 +
    g.bits)

/-- Format X. -/
def encX (ad : Fin 4) (ra rb sh func : Nat) (g : Guard) : Word :=
  BitVec.ofNat 32 (35 * 2 ^ 26 + ad.val * 2 ^ 24 + ra * 2 ^ 20 + rb * 2 ^ 16 + sh * 2 ^ 10 + func * 2 ^ 4 + g.bits)

/-- Format W. -/
def encW (major : Nat) (v : Fin 8) (a : LAddr) (sz : Size) (sgn m : Bool) (st : Fin 6) : Word :=
  BitVec.ofNat 32 (major * 2 ^ 26 + v.val * 2 ^ 23 + a.ga.val * 2 ^ 19 + sz.code * 2 ^ 17 + bit01 sgn * 2 ^ 16 +
    st.val * 2 ^ 13 + bit01 a.l * 2 ^ 12 + bit01 m * 2 ^ 11 + a.off.toNat)

/-- Format V with its vb and S fields as numbers. -/
def encV (vd va vb : Nat) (s m : Bool) (sh func : Nat) : Word :=
  BitVec.ofNat 32 (42 * 2 ^ 26 + vd * 2 ^ 23 + va * 2 ^ 20 + vb * 2 ^ 16 + bit01 s * 2 ^ 15 + bit01 m * 2 ^ 14 + sh * 2 ^ 8 +
    func * 2 ^ 2)

/-- Format V with operand b. -/
def encVb (vd va : Nat) (b : VOperand) (m : Bool) (sh func : Nat) : Word :=
  match b with
  | .vec v => encV vd va v.val false m sh func
  | .reg g => encV vd va g.val true m sh func

/-- Format K. -/
def encK (op : Nat) (a : LAddr) : Word :=
  BitVec.ofNat 32 (43 * 2 ^ 26 + op * 2 ^ 23 + a.ga.val * 2 ^ 19 + bit01 a.l * 2 ^ 18 + a.off.toNat * 2 ^ 7)

/-- The word of a ZIS instruction and the engine that executes it; none for a command that is no ZIS instruction. -/
def zisEncode : Instr → Option (Engine × Word)
  | .add e g rd ra rb => some (e, encA 0 rd ra rb 0 0 g)
  | .sub e g rd ra rb => some (e, encA 0 rd ra rb 0 1 g)
  | .and e g rd ra rb => some (e, encA 0 rd ra rb 0 2 g)
  | .or e g rd ra rb => some (e, encA 0 rd ra rb 0 3 g)
  | .xor e g rd ra rb => some (e, encA 0 rd ra rb 0 4 g)
  | .shl e g rd ra rb => some (e, encA 0 rd ra rb 0 5 g)
  | .shr e g rd ra rb => some (e, encA 0 rd ra rb 0 6 g)
  | .sra e g rd ra rb => some (e, encA 0 rd ra rb 0 7 g)
  | .min e g rd ra rb => some (e, encA 0 rd ra rb 0 8 g)
  | .max e g rd ra rb => some (e, encA 0 rd ra rb 0 9 g)
  | .minu e g rd ra rb => some (e, encA 0 rd ra rb 0 10 g)
  | .maxu e g rd ra rb => some (e, encA 0 rd ra rb 0 11 g)
  | .mul e g rd ra rb => some (e, encA 1 rd ra rb 0 0 g)
  | .mulh e g rd ra rb => some (e, encA 1 rd ra rb 0 1 g)
  | .mulhu e g rd ra rb => some (e, encA 1 rd ra rb 0 2 g)
  | .div e g rd ra rb => some (e, encA 1 rd ra rb 0 3 g)
  | .divu e g rd ra rb => some (e, encA 1 rd ra rb 0 4 g)
  | .rem e g rd ra rb => some (e, encA 1 rd ra rb 0 5 g)
  | .remu e g rd ra rb => some (e, encA 1 rd ra rb 0 6 g)
  | .qadd e g rd ra rb => some (e, encA 1 rd ra rb 0 7 g)
  | .qsub e g rd ra rb => some (e, encA 1 rd ra rb 0 8 g)
  | .qmul e g rd ra rb sh => some (e, encA 1 rd ra rb sh.toNat 9 g)
  | .qabs e g rd ra => some (e, encA 1 rd ra 0 0 10 g)
  | .qneg e g rd ra => some (e, encA 1 rd ra 0 0 11 g)
  | .addi e g rd ra imm => some (e, encI 2 rd ra imm.toNat g)
  | .andi e g rd ra imm => some (e, encI 3 rd ra imm.toNat g)
  | .ori e g rd ra imm => some (e, encI 4 rd ra imm.toNat g)
  | .xori e g rd ra imm => some (e, encI 5 rd ra imm.toNat g)
  | .shli e g rd ra sh => some (e, encI 6 rd ra sh.toNat g)
  | .shri e g rd ra sh => some (e, encI 7 rd ra sh.toNat g)
  | .srai e g rd ra sh => some (e, encI 8 rd ra sh.toNat g)
  | .mini e g rd ra imm => some (e, encI 9 rd ra imm.toNat g)
  | .maxi e g rd ra imm => some (e, encI 10 rd ra imm.toNat g)
  | .lui e g rd imm => some (e, BitVec.ofNat 32 (11 * 2 ^ 26 + rd.val * 2 ^ 22 + imm.toNat * 2 ^ 4 + g.bits))
  | .cmp e g c pd ra rb => some (e, BitVec.ofNat 32 (12 * 2 ^ 26 + pd.val * 2 ^ 24 + ra.val * 2 ^ 18 + rb.val * 2 ^ 14 +
      c.code * 2 ^ 11 + g.bits))
  | .cmpi e g c pd ra imm => some (e, BitVec.ofNat 32 (13 * 2 ^ 26 + pd.val * 2 ^ 24 + c.code * 2 ^ 21 + ra.val * 2 ^ 17 +
      imm.toNat * 2 ^ 4 + g.bits))
  | .pand e g pd ps pt => some (e, encPL 0 pd ps pt g)
  | .por e g pd ps pt => some (e, encPL 1 pd ps pt g)
  | .pxor e g pd ps pt => some (e, encPL 2 pd ps pt g)
  | .pandn e g pd ps pt => some (e, encPL 3 pd ps pt g)
  | .ldw n g r ra imm => some (.strand n, encI 16 r ra imm.toNat g)
  | .ldh n g r ra imm => some (.strand n, encI 17 r ra imm.toNat g)
  | .ldhu n g r ra imm => some (.strand n, encI 18 r ra imm.toNat g)
  | .ldb n g r ra imm => some (.strand n, encI 19 r ra imm.toNat g)
  | .ldbu n g r ra imm => some (.strand n, encI 20 r ra imm.toNat g)
  | .stw n g r ra imm => some (.strand n, encI 21 r ra imm.toNat g)
  | .sth n g r ra imm => some (.strand n, encI 22 r ra imm.toNat g)
  | .stb n g r ra imm => some (.strand n, encI 23 r ra imm.toNat g)
  | .swapw n g rd ra rb => some (.strand n, encA 24 rd ra rb 0 0 g)
  | .casw n g rd ra rb => some (.strand n, encA 24 rd ra rb 0 1 g)
  | .b n c off => some (.strand n, encB c off)
  | .jal n off => some (.strand n, BitVec.ofNat 32 (26 * 2 ^ 26 + off.toNat))
  | .jalr n rd ra imm => some (.strand n, encI 27 rd ra imm.toNat .always)
  | .sysc n imm => some (.strand n, encY 0 0 0 imm.toNat 0)
  | .brk n imm => some (.strand n, encY 0 0 0 imm.toNat 1)
  | .eret n => some (.strand n, encY 0 0 0 0 2)
  | .crd n rd cn => some (.strand n, encY rd.val 0 cn.val 0 3)
  | .cwr n cn ra => some (.strand n, encY 0 ra.val cn.val 0 4)
  | .wfe n => some (.strand n, encY 0 0 0 0 5)
  | .yield n => some (.strand n, encY 0 0 0 0 6)
  | .fence n => some (.strand n, encY 0 0 0 0 7)
  | .ldq t g sz rd a => some (.tile t, encM 32 rd.val a sz.code g)
  | .ldqU t g sz rd a => some (.tile t, encM 33 rd.val a sz.code g)
  | .ald t g ad a => some (.tile t, encM 32 ad.val a 3 g)
  | .stq t g sz rs a => some (.tile t, encM 34 rs.val a sz.code g)
  | .ast t g as a => some (.tile t, encM 34 as.val a 3 g)
  | .mac t g ad ra rb sh => some (.tile t, encX ad ra.val rb.val sh.toNat 0 g)
  | .msu t g ad ra rb sh => some (.tile t, encX ad ra.val rb.val sh.toNat 1 g)
  | .macx t g ad ra rb gs => some (.tile t, encX ad ra.val rb.val gs.val 2 g)
  | .msux t g ad ra rb gs => some (.tile t, encX ad ra.val rb.val gs.val 3 g)
  | .acr t g rd ad sh => some (.tile t, encX ad rd.val 0 sh.toNat 4 g)
  | .acw t g ad ra sh => some (.tile t, encX ad ra.val 0 sh.toNat 5 g)
  | .acadd t g ad ra sh => some (.tile t, encX ad ra.val 0 sh.toNat 6 g)
  | .acacc t g ad ab sh => some (.tile t, encX ad 0 ab.val sh.toNat 7 g)
  | .achi t g rd ad => some (.tile t, encX ad rd.val 0 0 8 g)
  | .aclo t g rd ad => some (.tile t, encX ad rd.val 0 0 9 g)
  | .acclr t g ad => some (.tile t, encX ad 0 0 0 10 g)
  | .adiv t g rd ad rb => some (.tile t, encX ad rd.val rb.val 0 11 g)
  | .rpt t nm1 lenm1 gi inc => some (.tile t, BitVec.ofNat 32 (36 * 2 ^ 26 + nm1.toNat * 2 ^ 18 + lenm1.toNat * 2 ^ 12 +
      gi.val * 2 ^ 8 + inc.toNat))
  | .endLoop t => some (.tile t, BitVec.ofNat 32 (37 * 2 ^ 26))
  | .vrange t g0 nm1 => some (.tile t, BitVec.ofNat 32 (38 * 2 ^ 26 + g0.val * 2 ^ 22 + nm1.val * 2 ^ 18))
  | .vld t sz sgn m st v a => some (.tile t, encW 40 v a sz sgn m st)
  | .vst t sz m st v a => some (.tile t, encW 41 v a sz false m st)
  | .vadd t m vd va b => some (.tile t, encVb vd.val va.val b m 0 0)
  | .vsub t m vd va b => some (.tile t, encVb vd.val va.val b m 0 1)
  | .vmul t m vd va b sh => some (.tile t, encVb vd.val va.val b m sh.toNat 2)
  | .vmin t m vd va b => some (.tile t, encVb vd.val va.val b m 0 3)
  | .vmax t m vd va b => some (.tile t, encVb vd.val va.val b m 0 4)
  | .vand t m vd va b => some (.tile t, encVb vd.val va.val b m 0 5)
  | .vor t m vd va b => some (.tile t, encVb vd.val va.val b m 0 6)
  | .vxor t m vd va b => some (.tile t, encVb vd.val va.val b m 0 7)
  | .vsh t m vd va sh => some (.tile t, encV vd.val va.val 0 false m sh.toNat 8)
  | .vmuldiv t m vd va gb gc => some (.tile t, encV vd.val va.val gb.val true m gc.val 9)
  | .vsel t vd va b => some (.tile t, encVb vd.val va.val b false 0 10)
  | .vidx t m vd => some (.tile t, encV vd.val 0 0 false m 0 11)
  | .vscan t m vd va => some (.tile t, encV vd.val va.val 0 false m 0 12)
  | .vcmp t c m va b => some (.tile t, encVb 0 va.val b m 0 (16 + c.code))
  | .vsum t m ad va sh => some (.tile t, encV ad.val va.val 0 false m sh.toNat 22)
  | .vcnt t m ad => some (.tile t, encV ad.val 0 0 false m 0 23)
  | .vmaxr t m ad va => some (.tile t, encV ad.val va.val 0 false m 0 24)
  | .vminr t m ad va => some (.tile t, encV ad.val va.val 0 false m 0 25)
  | .vget t gb va gi => some (.tile t, encV 0 va.val gb.val true false gi.val 26)
  | .vput t vd gi gb => some (.tile t, encV vd.val 0 gb.val true false gi.val 27)
  | .vmld t a => some (.tile t, encK 0 a)
  | .vmst t a => some (.tile t, encK 1 a)
  | .vmand t a => some (.tile t, encK 2 a)
  | .vmor t a => some (.tile t, encK 3 a)
  | .vmnot t => some (.tile t, BitVec.ofNat 32 (43 * 2 ^ 26 + 4 * 2 ^ 23))
  | .vmall t => some (.tile t, BitVec.ofNat 32 (43 * 2 ^ 26 + 5 * 2 ^ 23))
  | .vmnone t => some (.tile t, BitVec.ofNat 32 (43 * 2 ^ 26 + 6 * 2 ^ 23))
  | _ => none

end Sys2Proof
end

