-- ==== Sys2Proof/Config.lean ====
section
/-! DEFINITION. What the spec leaves to the part, the board or to nobody: opaque constants without a body, so that no
statement can rest on a value of theirs (the log rows named below). -/

namespace Sys2Proof

/-- The free words: the n-th value the spec leaves open in a run (log 4). -/
opaque Config.freeWord : Nat → Word

/-- The boot ROM's bytes, which the spec does not give (R55, log 5). -/
opaque Config.bootRom : Nat → Byte

/-- The natural logarithm that R266 uses, on a binary64 pattern; the spec does not give its rounding (log 4). -/
opaque Config.ln64 : BitVec 64 → BitVec 64

/-- sin(2π φ / 2^32) × 2^30 for the sine of R198, which the spec bounds but does not give exactly (log 4). -/
opaque Config.sineQ30 : Word → Int

/-- The board's resistor on SEQ_ENn: high when it pulls up (R60, Table 2.3; log 6). -/
opaque Config.seqEnPull : Nat → Bool

/-- The board's resistor on GPIOn: high when it pulls up (R60, Table 2.3; log 6). -/
opaque Config.gpioPull : Nat → Bool

/-- The voltage on ADDR while it is sampled, µV (R65; log 6). -/
opaque Config.addrMicrovolt : Nat

end Sys2Proof
end

