-- ==== Sys2Proof/Machine/State.lean ====
section
/-! DEFINITION. The state of the ZS1280 as plain data: one register file keyed by address, the memories, and for each
block what its rules hold outside a register. Every field's default is its reset value. -/

namespace Sys2Proof.Machine

/-- No command of the table stops the machine: the spec gives every one an effect, so no fault is raised by any meaning
(safe: the type is kept for the host's interface and has the one name below). -/
inductive Fault where
  /-- Raised by no meaning: kept so that the type is inhabited (safe). -/
  | none
  deriving DecidableEq, Repr

/-- Why a command is refused by the model. -/
inductive Refusal where
  /-- A command whose meaning is not written yet, named by its mnemonic (safe). -/
  | notModelled (mnemonic : String)
  deriving DecidableEq, Repr

/-- One flag per power domain (Table 1.8). -/
structure DomainFlags where
  aon   : Bool := false
  tgrid : Bool := false
  sup   : Bool := false
  tile0 : Bool := false
  tile1 : Bool := false
  hub   : Bool := false
  afe   : Bool := false
  nvm   : Bool := false
  seq   : Bool := false
  ifc   : Bool := false
  deriving DecidableEq, Repr

/-- The shelf states of Table 1.13. -/
inductive ShelfState where
  | off | ship | standby | precharge | connected | regulating | holdover | faultLatched | recovery
  deriving DecidableEq, Repr

/-- How far the boot has come (Table 3.4, R95, R96). -/
inductive BootPhase where
  | off | fuseLoad | waitVin | powerLock | bootRom | loader | app | done | recovery | warmRestart
  deriving DecidableEq, Repr

/-- The supplies, power domains and what AON keeps (R48, R82 to R105). -/
structure Power where
  vinMv      : Nat := 0
  vinGood    : Bool := false
  vinLow     : Bool := false
  pfail      : Bool := false
  pfFlush    : Bool := false
  warn       : Bool := false
  vioGood    : Bool := false
  resetLow   : Bool := false
  powered    : DomainFlags := {}
  held       : DomainFlags := {}
  request    : Word := 0
  requestAt  : Nat := 0
  boot       : BootPhase := .off
  bootAt     : Nat := 0
  fuseDiff   : Bool := false
  rcvCause   : Nat := 0
  warm       : Bool := false
  bootSlot   : Nat := 0
  stage      : Nat := 1
  cur        : ShelfState := .off
  prev       : ShelfState := .off
  latch      : Bool := false
  fltEvt     : Nat := 0
  rstCause   : Word := 0
  wdtTicks   : Nat := 0
  wdtRun     : Bool := false
  rcvReq     : Bool := false
  shipping   : Bool := false
  wakeEvent  : Bool := false
  debugOff   : Bool := false
  deriving DecidableEq, Repr

/-- A requested shelf transition that waits for its vertex (R57), with the event of a latching fault. -/
structure ShelfRequest where
  dst    : ShelfState
  fltEvt : Nat := 0
  deriving DecidableEq, Repr

/-- The instants of a period, in order (Table 1.5). -/
inductive Instant where
  | vertex | uplink | deadline | chord
  deriving DecidableEq, Repr

/-- The time grid (R29 to R54, R566). -/
structure TimeGrid where
  tick       : Nat := 0
  vtx        : Nat := 0
  perseq     : Nat := 0
  instant    : Instant := .vertex
  period     : Nat := 2000
  updl       : Nat := 850
  chord      : Nat := 1400
  pend       : Option (Nat × Nat × Nat) := none
  pendIn     : Nat := 0
  stopped    : Bool := false
  locked     : Bool := false
  fallback   : Bool := false
  pllReturn  : Bool := false
  ppsLast    : Nat := 0
  ppsArmed   : Bool := false
  ppsSeen    : Bool := false
  ppsValid   : Bool := false
  ppsAcc     : Nat := 0
  ppsRej     : Nat := 0
  ppsErr     : Int := 0
  ppsRejSt   : Bool := false
  aligned    : Bool := false
  alignLeft  : Int := 0
  deriving DecidableEq, Repr

/-- A notice of a loop's goal, as R215 queues it: link sequence, loop and kind. -/
structure NoticeBody where
  lseq : Nat
  loop : Nat
  kind : Nat
  deriving DecidableEq, Repr

/-- A raising of an event before it is numbered: its source, its stamp, and the notice it stands behind (R215, R436). -/
structure Raise where
  ev     : Nat
  src    : Nat := 0
  stamp  : Nat := 0
  notice : Option NoticeBody := none
  deriving DecidableEq, Repr

/-- A numbered raising (R436). -/
structure Event where
  seq   : Nat
  stamp : Nat
  ev    : Nat
  src   : Nat
  deriving DecidableEq, Repr

/-- The event controller (R436 to R440). EVPEND is a list of the 128 bits. -/
structure Events where
  seq    : Nat := 0
  queue  : List Event := []
  lost   : Nat := 0
  pend   : BitVec 128 := 0
  held   : List Raise := []
  deriving DecidableEq, Repr

/-- A strand's run state (R429). -/
inductive RunState where
  | stopped | ready | waiting
  deriving DecidableEq, Repr

/-- A strand: registers of Tables 13.2 and 13.13, and what issue keeps of it (R429 to R434). -/
structure Strand where
  run     : RunState := .stopped
  g       : List Word := List.replicate 16 0
  p       : List Bool := List.replicate 4 false
  pc      : Word := 0
  priv    : Bool := true
  ppriv   : Bool := false
  epc     : Word := 0
  ecause  : Nat := 0
  eaddr   : Word := 0
  tvec    : Word := 0x10000000
  eval    : Nat := 0
  scr     : Word := 0
  wakePri : Nat := 0
  promo   : Bool := false
  exc     : Nat := 0
  starv   : Nat := 0
  deriving DecidableEq, Repr

/-- The issue of the supervisor core: which strand holds it, and since when (R432). -/
structure Issue where
  holder : Option (Fin 8) := none
  since  : Nat := 0
  deriving DecidableEq, Repr

/-- One level of a repeat in hand (R418): the body's first address, its length in words, passes left, and its step. -/
structure Repeat where
  start : Nat
  len   : Nat
  left  : Nat
  gi    : Fin 16
  inc   : BitVec 8
  deriving DecidableEq, Repr

/-- A tile: its loop engine (Table 13.2), its mirror shadow (R193) and its standing (R303, R304). -/
structure Tile where
  running   : Bool := false
  stepped   : Bool := false
  startTick : Nat := 0
  steps     : Nat := 0
  doneTick  : Option Nat := none
  failed    : Option Nat := none
  pc        : Nat := 0
  rpt       : List Repeat := []
  g         : List Word := List.replicate 16 0
  p         : List Bool := List.replicate 4 false
  a         : List Int := List.replicate 4 0
  v         : List (List Word) := List.replicate 8 (List.replicate 128 0)
  vmask     : BitVec 128 := 0
  vg0       : Nat := 0
  vn        : Nat := 16
  shadow    : List Host.Cell := []
  shadowBad : Bool := false
  loaded    : Bool := false
  ready     : Bool := false
  sby       : Bool := false
  loadBusy  : Bool := false
  plen      : Nat := 0
  deriving DecidableEq, Repr

/-- Failover states of Table 9.2. -/
inductive FoState where
  | dual | single | takeover | hold
  deriving DecidableEq, Repr

/-- The failover controller (R294 to R310). -/
structure Failover where
  fo         : FoState := .hold
  act        : Fin 2 := 0
  lastCause  : Nat := 0
  resPend    : Bool := false
  swapReq    : Bool := false
  resumeReq  : Bool := false
  lastDone   : Option Nat := none
  mirrorOk   : Option Bool := none
  firstRun   : Bool := false
  consec     : Nat := 0
  wcs        : Nat := 0xFFFF
  holdoverSent : Bool := false
  deriving DecidableEq, Repr

/-- A record of an uplink frame (Table 4.4). -/
structure UpRecord where
  vstg : Nat
  istg : Int
  tstg : Int
  stat : Byte
  csub : Byte
  pos  : Nat
  nseq : Nat
  deriving DecidableEq, Repr

/-- An uplink frame that reached a hub end in this period (R120, R131). -/
structure UpFrame where
  ok    : Bool
  orig  : Bool
  trec  : Bool
  half  : Nat
  rpos  : Nat
  rst   : Nat
  rval  : Nat
  recs  : List UpRecord
  deriving DecidableEq, Repr

/-- Slot states of SLOTSTAT.STATE (Table 4.18). -/
inductive SlotState where
  | absent | present | ranged | admitted | isolated | refused
  deriving DecidableEq, Repr

/-- The hub's side of one slot (R130 to R134, R148 to R152). -/
structure HubSlot where
  st       : SlotState := .absent
  nid      : Nat := 0
  cap      : Option Nat := none
  nidRead  : Bool := false
  vstg     : Nat := 0
  istg     : Int := 0
  tstg     : Int := 0
  stat     : Byte := 0
  fresh    : Bool := false
  seqErr   : Bool := false
  age      : Nat := 0
  cell     : Word := 0
  cellNew  : Bool := false
  cellAsm  : List Byte := []
  silent   : Bool := false
  dlyA     : Nat := 0xFFFF
  dlyB     : Nat := 0xFFFF
  rangedA  : Bool := false
  rangedB  : Bool := false
  dlyWrA   : Bool := false
  dlyWrB   : Bool := false
  release  : Bool := false
  sent     : List Byte := [0, 0, 0, 0, 0, 0]
  deriving DecidableEq, Repr

/-- A management request (Table 4.2): which position, what operation, and whether an automatic step made it. -/
structure MgmtReq where
  pos  : Nat
  op   : Nat
  reg  : Nat
  val  : Nat
  auto : Bool
  deriving DecidableEq, Repr

/-- A ranging in hand (R129): the position, the end, when the triggering SOF was or will be launched. -/
structure Ranging where
  pos    : Nat
  endB   : Bool
  auto   : Bool
  launch : Option Nat := none
  result : Option Nat := none
  deriving DecidableEq, Repr

/-- A requested fold or unfold of a chain (R160). -/
inductive FoldReq where
  | unfold
  | fold (tposA : Nat)
  deriving DecidableEq, Repr

/-- The hub's side of one chain (R154 to R160). -/
structure Chain where
  en       : Bool := false
  lockA    : Bool := false
  lockB    : Bool := false
  lostA    : Bool := false
  lostB    : Bool := false
  losA     : Bool := false
  losB     : Bool := false
  frameA   : Option UpFrame := none
  frameB   : Option UpFrame := none
  arrA     : Bool := false
  arrB     : Bool := false
  dlSent   : Bool := false
  dlCtx    : Nat := 0
  lbNow    : Bool := false
  lbok     : Bool := false
  folded   : Bool := false
  autoA    : Bool := false
  autoB    : Bool := false
  tposA    : Nat := 0
  tposB    : Nat := 0
  yieldA   : Bool := false
  yieldB   : Bool := false
  rebrkA   : Bool := false
  rebrkB   : Bool := false
  emptyA   : Bool := false
  emptyB   : Bool := false
  brkStand : Bool := false
  foldReq  : Option FoldReq := none
  req      : Option MgmtReq := none
  ranging  : Option Ranging := none
  deriving DecidableEq, Repr

/-- A frame the hub sent (an output): chain, end and bytes of header, records and check (R117, R120). -/
structure SentFrame where
  chain : Nat
  endB  : Bool
  bytes : List Byte
  deriving DecidableEq, Repr

/-- The hub (R148 to R166). -/
structure Hub where
  running   : Bool := false
  slots     : List HubSlot := List.replicate 128 {}
  chains    : List Chain := List.replicate 8 {}
  mboxBusy  : Bool := false
  mboxSent  : Bool := false
  mboxRes   : Nat := 0
  mboxRval  : Nat := 0
  holding   : Bool := false
  holdovf   : Bool := false
  tpseq     : Nat := 0xFFFFFFFF
  cpseq     : Nat := 0xFFFFFFFF
  sentOut   : List SentFrame := []
  deriving DecidableEq, Repr

/-- The policy fields of one loop as latched at a deadline (Tables 5.2 and 7.1). -/
structure Policy where
  vset : Nat := 0
  vmin : Nat := 0
  vmax : Nat := 0
  rate : Nat := 0
  imax : Int := 0
  imin : Int := 0
  rll  : Nat := 0
  pcap : Nat := 0
  deriving DecidableEq, Repr

/-- One loop of LOOP: latched inputs (Table 5.1), the set-point path and the pending items of R197. POS has 16 fractional
bits. -/
structure Loop where
  on       : Bool := false
  nomem    : Bool := false
  init     : Bool := false
  startReq : Bool := false
  goalSet  : Bool := false
  needInit : Bool := false
  pol      : Policy := {}
  vsetSeen : Option Nat := none
  spsrc    : Bool := false
  llen     : Bool := false
  llPend   : Bool := false
  goal     : Nat := 0
  goalSeq  : Option Nat := none
  pos      : Int := 0
  posNew   : Int := 0
  vmeas    : Int := 0
  vprev    : Int := 0
  fbstale  : Bool := false
  tgt      : Int := 0
  tgtDone  : Int := 0
  ll       : Int := 0
  ff       : Int := 0
  ishf     : Int := 0
  tclamp   : Bool := false
  vclampOn : Bool := false
  brkdet   : Bool := false
  d        : Int := 0
  settle   : Nat := 0
  settleNew : Nat := 0
  cseq     : Nat := 0
  cst      : Nat := 0
  tb       : Nat := 0
  icap     : Int := 0x7FFFFFFF
  deriving DecidableEq, Repr

/-- What a computing period of a loop yields: as staged by the tile, as committed by the completed period, and as shown
from the next deadline on (LnERR, LnUOUT, LnIFLT, LnSTAT, ALLOC; R203, R206, R251). -/
structure LoopDone where
  xe     : Int := 0
  err    : Int := 0
  xu     : Int := 0
  tot    : Int := 0
  duty   : Int := 0
  ifl    : Int := 0
  rgn    : Nat := 0
  cand   : Nat := 0
  satHi  : Bool := false
  satLo  : Bool := false
  brkAct : Bool := false
  dtot   : Int := 0
  rtot   : Int := 0
  btot   : Int := 0
  c      : Nat := 0
  cUp    : Nat := 0
  cDn    : Nat := 0
  moving : Nat := 0
  bf     : Int := 0
  act    : BitVec 128 := 0
  dith   : BitVec 128 := 0
  deriving DecidableEq, Repr

/-- Test injection and response capture (R198 to R202). -/
structure Inject where
  run     : Bool := false
  stopReq : Option Nat := none
  startReq : Bool := false
  abort   : Nat := 0
  phase   : Nat := 0
  prbs    : Nat := 1
  chips   : Nat := 0
  capRun  : Bool := false
  capDec  : Nat := 0
  capBuf  : Nat := 0
  capPtr  : Nat := 0
  capBase : Nat := 0
  deriving DecidableEq, Repr

/-- The LOOP block besides its registers: loops, coefficient sets in force, injection (R167 to R206). -/
structure LoopBlock where
  loops  : List Loop := List.replicate 4 {}
  done   : List LoopDone := List.replicate 4 {}
  comm   : List LoopDone := List.replicate 4 {}
  staged : List LoopDone := List.replicate 4 {}
  coef   : List (List Word) := List.replicate 16 (List.replicate 8 0)
  cpend  : Bool := false
  inj    : Inject := {}
  select : Nat := 0
  ovr    : Bool := false
  changed : BitVec 16 := 0
  deriving DecidableEq, Repr

/-- ALLOC besides its registers (R225 to R254). -/
structure Alloc where
  gen      : Nat := 1
  gcount   : Nat := 0
  periods  : Nat := 0
  ctl      : Word := 0
  grp      : Bool := false
  capCount : Nat := 0
  capAct   : Bool := false
  rotTicks : List Nat := List.replicate 4 0
  rotDue   : List Bool := List.replicate 4 false
  rotSlot  : List (Option Nat) := List.replicate 4 none
  shdTicks : List Nat := List.replicate 4 0
  shdDue   : List Bool := List.replicate 4 false
  dtotSet  : List Bool := List.replicate 4 false
  runTicks : List Nat := List.replicate 128 0
  rectAv   : BitVec 128 := 0
  rectRef  : BitVec 128 := 0
  actMask  : BitVec 128 := 0
  dithMask : BitVec 128 := 0
  r0       : List Int := List.replicate 128 0
  bf       : List (Option Int) := List.replicate 4 (some 0)
  deriving DecidableEq, Repr

/-- What allocation of one loop leaves to be committed at the chord of a completed period (R243, R248, R251). -/
structure AllocPend where
  capActs  : Bool := false
  shdTicks : Nat := 0
  rotated  : Bool := false
  rotSlot  : Option Nat := none
  short    : Bool := false
  wakeFail : Bool := false
  deriving DecidableEq, Repr

/-- The front end's sums for one slot (R261). -/
structure FeSlot where
  v    : Int := 0
  i    : Int := 0
  ok   : Bool := true
  dith : Bool := true
  act  : Bool := true
  deriving DecidableEq, Repr

/-- A chip of the front end: the G of its opening advance, its length, the deadlines left, the samples taken (R261). -/
structure FeChip where
  g     : Nat
  len   : Nat
  left  : Nat
  count : Nat := 0
  bad   : Bool := false
  slots : List FeSlot := List.replicate 128 {}
  deriving DecidableEq, Repr

/-- The front end (R260 to R263): openings that wait for their second deadline, the chip in progress, a chip whose last
period did not complete. -/
structure FrontEnd where
  opens   : List (Nat × Nat) := []
  chip    : Option FeChip := none
  late    : Option FeChip := none
  badNext : Bool := false
  deriving DecidableEq, Repr

/-- EST's hardware for one slot (R256, R257, R272). -/
structure EstSlot where
  q     : Int := 0
  eodC  : Nat := 0
  eocC  : Nat := 0
  eod   : Bool := false
  eoc   : Bool := false
  gap   : Option Nat := none
  deriving DecidableEq, Repr

/-- The back end's working state for one slot besides its brick record (R264 to R284): θ, P and s² as binary64 patterns,
the previous chip's means and whether it may be used, the parameters it ran with, SoC_cc at the previous chip, the
window's adjustment sum, the ticks without dither, the limit bits seen, the SoC held while SUSPECT, and the cell
rotation with the spread of the latest complete one. -/
structure BackSlot where
  known   : Bool := false
  theta   : List (BitVec 64) := List.replicate 4 0
  cov     : List (BitVec 64) := List.replicate 16 0
  s2      : BitVec 64 := 0
  pv      : Nat := 0
  pi      : Int := 0
  pUse    : Bool := false
  chem    : Nat := 0
  ncell   : Nat := 0
  soccc   : Option Int := none
  adj     : Int := 0
  quiet   : Nat := 0
  eodSeen : Bool := false
  eocSeen : Bool := false
  held    : Nat := 0
  cells   : List Nat := []
  spread  : Option Nat := none
  deriving DecidableEq, Repr

/-- EST and its back end besides registers; `backG` is the G of the chip the back end last processed. -/
structure Est where
  slots   : List EstSlot := List.replicate 128 {}
  adj     : Option (Nat × Int) := none
  fe      : FrontEnd := {}
  back    : List BackSlot := List.replicate 128 {}
  backG   : Nat := 0
  restart : Bool := true
  takeover : Bool := false
  gapSeen : Bool := false
  reload  : Bool := true
  imbShelf : Bool := false
  deriving DecidableEq, Repr

/-- THERM's state for one slot (R352 to R361). Temperatures are in 1/64 °C. -/
structure ThermSlot where
  brkS   : Bool := false
  brkC   : Bool := false
  brkE   : Bool := false
  difS   : Nat := 0
  difC   : Nat := 0
  difE   : Nat := 0
  fresh0 : Bool := true
  tst    : Int := 0
  stale  : Bool := false
  dsw    : Int := 0
  dco    : Int := 0
  tsw    : Int := 0
  tcore  : Int := 0
  kth    : Nat := 128
  band   : Nat := 0
  warn   : Bool := false
  derate : Bool := false
  ror0   : Int := 0
  rorEv  : Bool := false
  cells  : List (Option Int) := []
  exttOk : Bool := false
  exttAt : Nat := 0
  deriving DecidableEq, Repr

/-- THERM besides its registers. -/
structure Therm where
  slots  : List ThermSlot := List.replicate 128 {}
  loopB  : List Nat := List.replicate 4 0
  die    : Int := 0x7FFF
  s0     : Int := 0
  s1     : Int := 0
  dieBrk : Bool := false
  dieEv  : Bool := false
  dieWarn : Bool := false
  dieBand : Nat := 0
  rorAt  : Nat := 0
  deriving DecidableEq, Repr

/-- The margin planner (R312 to R319). `canRun`: 0 none, 1 and 2 the two runs, 3 between them. -/
structure Age where
  vcore   : Nat := 1000
  stepReq : Int := 0
  settling : Bool := false
  settleAt : Nat := 0
  winOn   : Bool := false
  periods : Nat := 0
  least   : Nat := 0xFFFF
  slkLast : Nat := 0
  slkW    : Nat := 0
  winMin  : Nat := 0
  winTgt  : Nat := 0
  winBand : Nat := 0
  low     : Nat := 0
  high    : Nat := 0
  grpSet  : Bool := false
  inhibit : Bool := false
  inhAt   : Nat := 0
  can0    : Nat := 0
  can1    : Nat := 0
  canAge  : Option Nat := none
  canRun  : Nat := 0
  canDone : Bool := false
  canWins : Nat := 0
  bandEnd : Bool := false
  up      : Nat := 0
  down    : Nat := 0
  advPer  : Nat := 0
  advChord : Nat := 0
  deriving DecidableEq, Repr

/-- Gate states of Table 10.2. -/
inductive Gst where
  | open_ | check | prechg | ramp | close | closed | opening | tripped
  deriving DecidableEq, Repr

/-- GATE besides its registers (R327 to R347): `conHigh` is the contactor drive kept in OPENING and TRIPPED, `ioff` an
AIN2 result at or below CONIOFF since entry, `conBad` since when a contact differs from its drive. -/
structure Gate where
  gst      : Gst := .open_
  since    : Nat := 0
  cause    : BitVec 13 := 0
  tripTick : Nat := 0
  vbus     : Int := 0
  vrack    : Int := 0
  vsw      : Int := 0
  ish      : Int := 0
  ishv     : Int := 0
  psh      : Int := 0
  last     : List (Option Nat) := List.replicate 4 none
  heat     : Nat := 0
  eout     : Nat := 0
  ein      : Nat := 0
  eoutRes  : Nat := 0
  einRes   : Nat := 0
  agree    : Nat := 0
  revN     : Nat := 0
  ocw      : Bool := false
  uvw      : Bool := false
  revw     : Bool := false
  conHigh  : Bool := false
  ioff     : Bool := false
  pretDone : Bool := false
  conBad   : List (Option Nat) := [none, none]
  cmpOut   : List Bool := List.replicate 8 false
  deriving DecidableEq, Repr

/-- Rail states of Table 12.1. -/
inductive RailState where
  | off | rising | good | fault | retry | falling | latched
  deriving DecidableEq, Repr

/-- One rail of SEQ (R369 to R377): the times its timers started, `toLatch` for the failed rail of a shutdown, the
reaction as its fault latched it, and whether SEQ has taken its pin over. -/
structure Rail where
  st       : RailState := .off
  pgq      : Bool := false
  pgLevel  : Bool := false
  pgSince  : Nat := 0
  pgChg    : Bool := false
  chat     : Nat := 0
  retries  : Nat := 0
  riseAt   : Option Nat := none
  faultAt  : Option Nat := none
  retryAt  : Nat := 0
  dchAt    : Nat := 0
  toLatch  : Bool := false
  react    : Nat := 0
  nretry   : Nat := 0
  grp      : Nat := 0
  driven   : Bool := false
  deriving DecidableEq, Repr

/-- What a running sequence program waits for (R380, R389). -/
inductive SeqWait where
  | none
  | time (due : Nat)
  | check (down : Bool) (mask : Nat) (due : Option Nat) (target : Nat)
  | sync (state : Nat) (due : Option Nat) (target : Nat)
  deriving DecidableEq, Repr

/-- The rail sequencer besides its registers (R369 to R395): `auxHiAt` since when every result was high, `auxRe` the
qualification of R385. -/
structure Seq where
  rails    : List Rail := List.replicate 16 {}
  run      : Bool := false
  inShut   : Bool := false
  pc       : Nat := 0
  wait     : SeqWait := .none
  pfCause  : Nat := 0
  auxGood  : Bool := false
  auxLow   : Nat := 0
  auxHiAt  : Option Nat := none
  auxLast  : Nat := 0
  auxStale : Bool := false
  auxRe    : Bool := false
  syncSt   : Nat := 0
  lineHi   : Bool := false
  lineLo   : Bool := false
  lastRise : Option Nat := none
  deriving DecidableEq, Repr

/-- What a running conversion is for (Table 16.1). -/
inductive ConvClass where
  | vertex | die | inject | regular
  deriving DecidableEq, Repr

/-- A conversion in progress: channel, class, start tick, REFUV and settling as it started (R493, R498, R500). -/
structure Conversion where
  ch      : Nat
  cls     : ConvClass
  start   : Nat
  refuv   : Nat
  settled : Bool
  deriving DecidableEq, Repr

/-- One converter: its conversion, its share of the vertex set, its regular list and its calibration (R493, R502 to
R508). -/
structure Converter where
  busy    : Option Conversion := none
  vtx     : List Nat := []
  pos     : Nat := 0
  passAt  : Nat := 0
  passEnd : Bool := true
  calReq  : Bool := false
  calRun  : Bool := false
  calStep : Nat := 0
  calAt   : Nat := 0
  calWait : Nat := 0
  calSeq  : Bool := false
  deriving DecidableEq, Repr

/-- A result pair, its count, and the pair before it, which a read in the completion tick returns (R499). -/
structure Result where
  lo   : Word := 0
  hi   : Word := 0
  cnt  : Nat := 0
  at_  : Nat := 0
  plo  : Word := 0
  phi  : Word := 0
  deriving DecidableEq, Repr

/-- A software injected request (R504): channel and converter wanted. -/
structure InjReq where
  ch   : Nat
  conv : Nat
  deriving DecidableEq, Repr

/-- The acquisition block besides its registers (R493 to R512). `first`: no settling has completed since reset. -/
structure Adc where
  conv     : List Converter := [{}, {}]
  results  : List Result := List.replicate 24 {}
  inj      : Result := {}
  injQ     : List InjReq := []
  settled  : Bool := false
  settleAt : Option Nat := none
  first    : Bool := true
  inRange  : Nat := 0
  refLost  : Bool := false
  vtxNext  : List Nat := []
  vtxSet   : List Nat := []
  vtxGot   : List (Nat × Int) := []
  checkAt  : Nat := 0
  dieAt    : Nat := 0
  cal      : List Word := [0x80000000, 0x80000000]
  deriving DecidableEq, Repr

/-- A goal in the goal queue (R214). -/
structure Goal where
  loop : Nat
  arg  : Nat
  lseq : Nat
  tick : Nat
  deriving DecidableEq, Repr

/-- A notice in the notice queue (R215). -/
structure Notice where
  body : NoticeBody
  seq  : Nat
  tick : Nat
  deriving DecidableEq, Repr

/-- The set-point link besides its registers (R207 to R221): what it keeps of the last consumed frame, its queues, the
end of the running SPALERT# pulse, a pulse owed after a NOTRD, since when the queue waits, and the bytes it last
answered (an output). -/
structure Spl where
  e         : Nat := 0
  lastFrame : Option Word := none
  lastByte  : Byte := 0
  lastBlock : List Byte := []
  goals     : List Goal := []
  notices   : List Notice := []
  lost      : Bool := false
  pulseEnd  : Nat := 0
  pulseDue  : Bool := false
  repAt     : Nat := 0
  reply     : List Byte := []
  deriving DecidableEq, Repr

/-- A posted command (R521). -/
structure HostCmd where
  page : Nat
  cmd  : Nat
  data : Nat
  byte : Bool
  deriving DecidableEq, Repr

/-- TWB0 besides its registers (R513 to R533): the PMBus page, protection and STATUS_CML, the host command queue, the
window cursor, arming, sleep, the in-band request with the tick of its latest pulse, the strap offset, the controller's
transaction in hand, and what was last answered or sent (outputs). -/
structure Twb0 where
  page     : Nat := 0x80
  wprot    : Nat := 0
  cml      : Byte := 0
  hcq      : List HostCmd := []
  winCur   : Nat := 0
  winCnt   : Nat := 1
  armed    : Bool := true
  asleep   : Bool := false
  idleAt   : Nat := 0
  tlm      : Bool := false
  recNf    : Bool := false
  reqAct   : Bool := false
  pulseAt  : Option Nat := none
  strap    : Nat := 0
  cBusy    : Bool := false
  cTries   : Nat := 0
  cLoss    : Nat := 0
  cBack    : Option Nat := none
  reply    : List Byte := []
  nacked   : Bool := false
  ctlOut   : List Byte := []
  deriving DecidableEq, Repr

/-- TWB1 besides its registers (R534 to R536): a transaction in hand, and the bytes it sent (an output). -/
structure Twb1 where
  busy : Bool := false
  out  : List Byte := []
  deriving DecidableEq, Repr

/-- A conditioned input of Table 14.3 (R443, R444). -/
structure Input where
  raw   : Bool := false
  level : Bool := false
  edges : Nat := 0
  winAt : Nat := 0
  quiet : Nat := 0
  stkAt : Nat := 0
  tog   : Bool := false
  stk   : Bool := false
  frozen : Bool := false
  decl  : Nat := 0
  deriving DecidableEq, Repr

/-- Pins that are not conditioned, and the host bus idle level. -/
structure Pins where
  gateFltLow : Bool := true
  confb      : List Bool := [false, false]
  deriving DecidableEq, Repr

/-- An entry of MEM's error log (R468). -/
structure LogEntry where
  kind   : Nat
  mem    : Nat
  master : Nat
  addr   : Nat
  stamp  : Nat
  deriving DecidableEq, Repr

/-- A flash word being programmed or a sector being erased (R463). -/
inductive FlashOp where
  | program (addr : Nat) (lo hi : Word) (chk : Option Byte)
  | erase (addr : Nat)
  deriving DecidableEq, Repr

/-- MEM besides its registers (R458 to R472). -/
structure Mem where
  merge    : Option (Nat × Option Word × Option Word) := none
  mergeChk : Option Byte := none
  op       : Option FlashOp := none
  log      : List LogEntry := []
  scrMem   : Nat := 0
  scrOff   : Nat := 0
  scrPass  : Nat := 0
  scrErr   : Nat := 0
  fcorr    : Nat := 0
  poison   : BitVec 256 := 0
  retired  : BitVec 256 := 0
  retAcc   : Nat := 0
  chkRd    : Nat := 0
  mirOpen  : Bool := false
  rows     : Nat × Nat × Nat × Bool := (0, 0, 0, false)
  deriving DecidableEq, Repr

/-- A record waiting in the recorder (Table 15.4), before OPTIME, PCYC and the check are added at its writing. -/
structure Record where
  seq   : Nat
  stamp : Nat
  evt   : Nat := 0
  kind  : Nat := 0
  src   : Nat := 0
  rep   : Nat := 0
  data  : Nat := 0
  optime : Nat := 0
  pcyc  : Nat := 0
  deriving DecidableEq, Repr

/-- The recorder (R473 to R486). -/
structure Recorder where
  ready    : Bool := false
  buf      : List Record := []
  flushing : List Record := []
  flBusy   : Bool := false
  flWait   : Bool := false
  flReq    : Bool := false
  pfMode   : Bool := false
  flTick   : Nat := 0
  hold     : List (Record × Bool) := []
  lost     : Nat := 0
  frozen   : Bool := false
  frzAt    : Nat := 0
  frzCnt   : Nat := 0
  wptr     : Nat := 0
  ersBusy  : Option Nat := none
  optime   : Nat := 0
  opTicks  : Nat := 0
  pcyc     : Nat := 0
  gapSeq   : Nat := 0
  empty    : Bool := true
  snapSeq  : Nat := 0
  snapBusy : Option (Nat × List Byte) := none
  snapNew  : Option Nat := none
  shipFail : Bool := false
  deriving DecidableEq, Repr

/-- The update controller besides its registers (R542 to R563): the channel's owner (firmware or host), the bytes not yet
programmed, the accepted header's region and length, the trial timer, the plan S time limit, and what the loader booted
(BOOTINF). -/
structure Upd where
  phase    : Nat := 0
  owner    : Option Bool := none
  reason   : Nat := 0
  rx       : List Byte := []
  got      : Nat := 0
  base     : Nat := 0
  len      : Nat := 0
  kind     : Nat := 0
  signed   : Bool := false
  eraseAt  : Nat := 0
  sigOk    : Bool := false
  holdSet  : Bool := false
  trial    : Bool := false
  trialAt  : Nat := 0
  timeAt   : Option Nat := none
  incompl  : Bool := false
  stale    : Bool := true
  socAt    : Nat := 0
  slot     : Nat := 0
  bTrial   : Bool := false
  bTries   : Nat := 0
  deriving DecidableEq, Repr

/-- The fuse array, its shadow and programming in progress (R559, R560). -/
structure Fuses where
  array  : List Word := List.replicate 128 0
  shadow : List Word := List.replicate 128 0
  busy   : Option (Nat × Word) := none
  busyAt : Nat := 0
  locked : Bool := false
  deriving DecidableEq, Repr

/-- The answer to the requester of the latest access (R6, R50). -/
inductive Answer where
  | none
  | done
  | value (w : Word)
  | busError
  deriving DecidableEq, Repr

/-- The part itself: everything the spec gives it. `regs` lists every register whose stored bits differ from their reset value, addresses rising;
`mem` is Table 1.12's memories; `snap` is the snapshot area outside the map; `ecc` lists flash words whose stored check
bits are not those of Table 15.1's code for their data. -/
structure Chip where
  now      : Nat := 0
  pwr      : Power := {}
  shelfReq : Option ShelfRequest := none
  snapReq  : Option Nat := none
  tg       : TimeGrid := {}
  regs     : List (Nat × Word) := []
  shadows  : List (Nat × Word) := []
  mem      : List Host.Cell := []
  badPar   : List Nat := []
  ecc      : List (Nat × Byte) := []
  snap     : List Host.Cell := []
  fuses    : Fuses := {}
  crc      : Word := 0xFFFFFFFF
  ev       : Events := {}
  strands  : List Strand := List.replicate 8 {}
  issue    : Issue := {}
  pmon     : List Nat := List.replicate 8 0
  inputs   : List Input := List.replicate 32 {}
  pins     : Pins := {}
  tiles    : List Tile := [{}, {}]
  fo       : Failover := {}
  hub      : Hub := {}
  loop     : LoopBlock := {}
  alloc    : Alloc := {}
  allocPend : List AllocPend := List.replicate 4 {}
  est      : Est := {}
  therm    : Therm := {}
  age      : Age := {}
  gate     : Gate := {}
  seq      : Seq := {}
  adc      : Adc := {}
  spl      : Spl := {}
  twb0     : Twb0 := {}
  twb1     : Twb1 := {}
  memc     : Mem := {}
  recd     : Recorder := {}
  upd      : Upd := {}
  freeIx   : Nat := 0
  raised   : List Raise := []
  answer   : Answer := .none
  deriving DecidableEq, Repr

/-- The whole machine: the part, and the queue of the commands that wait, first in, first out. -/
structure State where
  chip    : Chip := {}
  pending : List Instr := []
  deriving DecidableEq, Repr

/-- The machine before power is applied: VIN at 0 V, the shelf OFF, every domain unpowered, every register at its reset
value, memories blank (R82, R98; log 3 and 5 for what the spec does not state). -/
def State.reset : State := {}

end Sys2Proof.Machine
end

