-- ==== Sys2Proof/Machine/RegMap.lean ====
section
/-! DEFINITION. The register map (R55): the address of every register, and for each the bits a write stores, the bits a
lock guards, the bits a written 1 clears, the bits a read clears and the reset value, from the chapters' register tables. -/

namespace Sys2Proof.Machine

/-! CRC (Table 0.7). -/
namespace Reg
abbrev crcctl : Nat := 0x40012000
abbrev crcdata : Nat := 0x40012004
abbrev crcbyte : Nat := 0x40012008
abbrev crcres : Nat := 0x4001200C
abbrev crcstate : Nat := 0x40012010
end Reg

/-! TGRID (Table 1.9). -/
namespace Reg
abbrev tgctl : Nat := 0x40001000
abbrev tgstat : Nat := 0x40001004
abbrev ticklo : Nat := 0x40001008
abbrev tickhi : Nat := 0x4000100C
abbrev period : Nat := 0x40001010
abbrev updl : Nat := 0x40001014
abbrev chordr : Nat := 0x40001018
abbrev percommit : Nat := 0x4000101C
abbrev perseq : Nat := 0x40001020
abbrev vtxlo : Nat := 0x40001024
abbrev vtxhi : Nat := 0x40001028
abbrev ppslo : Nat := 0x4000102C
abbrev ppshi : Nat := 0x40001030
abbrev ppswin : Nat := 0x40001034
abbrev ppserr : Nat := 0x40001038
abbrev trim : Nat := 0x4000103C
abbrev ppscnt : Nat := 0x40001040
abbrev tglock : Nat := 0x40001044
end Reg

/-! SYS (Table 3.6). -/
namespace Reg
abbrev devid : Nat := 0x40000000
abbrev state : Nat := 0x40000004
abbrev rstcause : Nat := 0x40000008
abbrev bootstat : Nat := 0x4000000C
abbrev bootdone : Nat := 0x40000010
abbrev swrst : Nat := 0x40000014
abbrev pwrctl : Nat := 0x40000018
abbrev pwrstat : Nat := 0x4000001C
abbrev drst : Nat := 0x40000020
abbrev vmon : Nat := 0x40000024
abbrev shipctl : Nat := 0x40000028
abbrev shipstat : Nat := 0x4000002C
abbrev fltclr : Nat := 0x40000030
abbrev wdtctl : Nat := 0x40000034
abbrev wdtkick : Nat := 0x40000038
abbrev syslock : Nat := 0x4000003C
end Reg

/-! HUB (Table 4.13). -/
namespace Reg
abbrev hubctl : Nat := 0x40002000
abbrev hubstat : Nat := 0x40002004
abbrev hubcfg : Nat := 0x40002008
abbrev holdctl : Nat := 0x4000200C
abbrev mboxctl : Nat := 0x40002010
abbrev mboxdata : Nat := 0x40002014
abbrev slotiso (i : Nat) : Nat := 0x40002018 + 4 * i
abbrev admitted (i : Nat) : Nat := 0x40002028 + 4 * i
abbrev fresh (i : Nat) : Nat := 0x40002038 + 4 * i
abbrev chctl (i : Nat) : Nat := 0x40002100 + 4 * i
abbrev chstat (i : Nat) : Nat := 0x40002120 + 4 * i
abbrev cherr (i : Nat) : Nat := 0x40002140 + 4 * i
abbrev slotcfg (i : Nat) : Nat := 0x40002200 + 4 * i
abbrev slotstat (i : Nat) : Nat := 0x40002400 + 4 * i
abbrev slotdly (i : Nat) : Nat := 0x40002600 + 4 * i
end Reg

/-! LOOP (Table 5.8, Table 9.6). -/
namespace Reg
abbrev loopstat : Nat := 0x40004000
abbrev ovrcnt : Nat := 0x40004004
abbrev coefcmt : Nat := 0x40004008
abbrev injctl : Nat := 0x4000400C
abbrev injamp : Nat := 0x40004010
abbrev injfrq : Nat := 0x40004014
abbrev injseed : Nat := 0x40004018
abbrev injstat : Nat := 0x4000401C
abbrev capctl : Nat := 0x40004020
abbrev capbase : Nat := 0x40004024
abbrev capstat : Nat := 0x40004028
abbrev capptr : Nat := 0x4000402C
abbrev lnCfg (i : Nat) : Nat := 0x40004100 + 0x80 * i
abbrev lnStat (i : Nat) : Nat := 0x40004104 + 0x80 * i
abbrev lnVmeas (i : Nat) : Nat := 0x40004108 + 0x80 * i
abbrev lnTgt (i : Nat) : Nat := 0x4000410C + 0x80 * i
abbrev lnPos (i : Nat) : Nat := 0x40004110 + 0x80 * i
abbrev lnGoal (i : Nat) : Nat := 0x40004114 + 0x80 * i
abbrev lnCmd (i : Nat) : Nat := 0x40004118 + 0x80 * i
abbrev lnErr (i : Nat) : Nat := 0x4000411C + 0x80 * i
abbrev lnUout (i : Nat) : Nat := 0x40004120 + 0x80 * i
abbrev lnFfout (i : Nat) : Nat := 0x40004124 + 0x80 * i
abbrev lnLlout (i : Nat) : Nat := 0x40004128 + 0x80 * i
abbrev lnIflt (i : Nat) : Nat := 0x4000412C + 0x80 * i
abbrev lnIth01 (i : Nat) : Nat := 0x40004130 + 0x80 * i
abbrev lnIth2 (i : Nat) : Nat := 0x40004134 + 0x80 * i
abbrev lnNth (i : Nat) : Nat := 0x40004138 + 0x80 * i
abbrev lnFilt (i : Nat) : Nat := 0x4000413C + 0x80 * i
abbrev lnCbus (i : Nat) : Nat := 0x40004140 + 0x80 * i
abbrev lnVffnom (i : Nat) : Nat := 0x40004144 + 0x80 * i
abbrev lnVffmin (i : Nat) : Nat := 0x40004148 + 0x80 * i
abbrev lnBrk (i : Nat) : Nat := 0x4000414C + 0x80 * i
abbrev lnBrkn (i : Nat) : Nat := 0x40004150 + 0x80 * i
abbrev lnSetl (i : Nat) : Nat := 0x40004154 + 0x80 * i
abbrev lnElim (i : Nat) : Nat := 0x40004158 + 0x80 * i
abbrev lnRgntab (i : Nat) : Nat := 0x40004300 + 4 * i
abbrev csB0 (i : Nat) : Nat := 0x40004400 + 0x20 * i
abbrev csB1 (i : Nat) : Nat := 0x40004404 + 0x20 * i
abbrev csB2 (i : Nat) : Nat := 0x40004408 + 0x20 * i
abbrev csB3 (i : Nat) : Nat := 0x4000440C + 0x20 * i
abbrev csA1 (i : Nat) : Nat := 0x40004410 + 0x20 * i
abbrev csA2 (i : Nat) : Nat := 0x40004414 + 0x20 * i
abbrev csA3 (i : Nat) : Nat := 0x40004418 + 0x20 * i
abbrev csShift (i : Nat) : Nat := 0x4000441C + 0x20 * i
abbrev tilectl : Nat := 0x40004E00
abbrev tilestat : Nat := 0x40004E04
abbrev failcnt : Nat := 0x40004E08
abbrev wcsr : Nat := 0x40004E0C
abbrev tnPlen (i : Nat) : Nat := 0x40004E10 + 0x10 * i
abbrev tnPchk (i : Nat) : Nat := 0x40004E14 + 0x10 * i
abbrev tnArm (i : Nat) : Nat := 0x40004E18 + 0x10 * i
abbrev tnDiag (i : Nat) : Nat := 0x40004E1C + 0x10 * i
end Reg

/-! SPL (Table 6.8). -/
namespace Reg
abbrev splctl : Nat := 0x40011000
abbrev splstat : Nat := 0x40011004
abbrev lseq : Nat := 0x40011008
abbrev lastfrm : Nat := 0x4001100C
abbrev lastrsp : Nat := 0x40011010
abbrev splcnta : Nat := 0x40011014
abbrev splcntb : Nat := 0x40011018
abbrev qstat : Nat := 0x4001101C
end Reg

/-! ALLOC (Table 7.10). -/
namespace Reg
abbrev allocctl : Nat := 0x40005000
abbrev allocstat : Nat := 0x40005004
abbrev dseed : Nat := 0x40005008
abbrev dgen : Nat := 0x4000500C
abbrev rotiv : Nat := 0x40005010
abbrev caprel : Nat := 0x40005014
abbrev actmask (i : Nat) : Nat := 0x40005020 + 4 * i
abbrev dithact (i : Nat) : Nat := 0x40005030 + 4 * i
abbrev rectav (i : Nat) : Nat := 0x40005040 + 4 * i
abbrev lnPhctl (i : Nat) : Nat := 0x40005100 + 0x40 * i
abbrev lnShdly (i : Nat) : Nat := 0x40005104 + 0x40 * i
abbrev lnDtot (i : Nat) : Nat := 0x40005108 + 0x40 * i
abbrev lnRtot (i : Nat) : Nat := 0x4000510C + 0x40 * i
abbrev lnBtot (i : Nat) : Nat := 0x40005110 + 0x40 * i
abbrev lnIcap (i : Nat) : Nat := 0x40005114 + 0x40 * i
abbrev lnCnt (i : Nat) : Nat := 0x40005118 + 0x40 * i
abbrev lnBf (i : Nat) : Nat := 0x4000511C + 0x40 * i
abbrev lnPhtab0 (i : Nat) : Nat := 0x40005120 + 4 * i
abbrev lnPhtab1 (i : Nat) : Nat := 0x40005160 + 4 * i
abbrev lnPhtab2 (i : Nat) : Nat := 0x400051A0 + 4 * i
abbrev lnPhtab3 (i : Nat) : Nat := 0x400051E0 + 4 * i
abbrev slim (i : Nat) : Nat := 0x40005400 + 4 * i
abbrev runt (i : Nat) : Nat := 0x40005600 + 4 * i
end Reg

/-! EST (Table 8.8). -/
namespace Reg
abbrev estctl : Nat := 0x40006000
abbrev eststat : Nat := 0x40006004
abbrev qadjslot : Nat := 0x40006008
abbrev qadjlo : Nat := 0x4000600C
abbrev qadjhi : Nat := 0x40006010
abbrev qadjcmt : Nat := 0x40006014
abbrev estqual : Nat := 0x40006018
abbrev etas (i : Nat) : Nat := 0x40006020 + 4 * i
abbrev veods (i : Nat) : Nat := 0x40006030 + 8 * i
abbrev veocs (i : Nat) : Nat := 0x40006034 + 8 * i
abbrev fechip : Nat := 0x40006048
abbrev evraise : Nat := 0x4000604C
abbrev recbase : Nat := 0x40006050
abbrev bepar0 : Nat := 0x40006060
abbrev bepar1 : Nat := 0x40006064
abbrev bepar2 : Nat := 0x40006068
abbrev bepar3 : Nat := 0x4000606C
abbrev bepar4 : Nat := 0x40006070
abbrev eodmask (i : Nat) : Nat := 0x40006080 + 4 * i
abbrev eocmask (i : Nat) : Nat := 0x40006090 + 4 * i
abbrev lgap (i : Nat) : Nat := 0x400060A0 + 4 * i
abbrev eslot (i : Nat) : Nat := 0x40006100 + 4 * i
abbrev qlo (i : Nat) : Nat := 0x40006400 + 8 * i
abbrev qhi (i : Nat) : Nat := 0x40006404 + 8 * i
abbrev chem0 (i : Nat) : Nat := 0x40006800 + 4 * i
abbrev chem1 (i : Nat) : Nat := 0x40006A80 + 4 * i
abbrev chem2 (i : Nat) : Nat := 0x40006D00 + 4 * i
end Reg

/-! GATE (Table 10.8). -/
namespace Reg
abbrev gcmd : Nat := 0x40007000
abbrev gstat : Nat := 0x40007004
abbrev tripcause : Nat := 0x40007008
abbrev causeclr : Nat := 0x4000700C
abbrev gcfg : Nat := 0x40007010
abbrev glock : Nat := 0x40007014
abbrev triptlo : Nat := 0x40007018
abbrev tripthi : Nat := 0x4000701C
abbrev leakcfg : Nat := 0x40007020
abbrev precfg : Nat := 0x40007024
abbrev rampcfg : Nat := 0x40007028
abbrev concfg : Nat := 0x4000702C
abbrev predv : Nat := 0x40007030
abbrev preshi : Nat := 0x40007034
abbrev conioff : Nat := 0x40007038
abbrev ovlim : Nat := 0x4000703C
abbrev uvlim : Nat := 0x40007040
abbrev oclim : Nat := 0x40007044
abbrev ocwarn : Nat := 0x40007048
abbrev i2tir : Nat := 0x4000704C
abbrev i2tlim : Nat := 0x40007050
abbrev revcfg : Nat := 0x40007054
abbrev fovp : Nat := 0x40007060
abbrev fuvp : Nat := 0x40007064
abbrev focp : Nat := 0x40007068
abbrev fvset : Nat := 0x4000706C
abbrev fmax : Nat := 0x40007070
abbrev fnslot : Nat := 0x40007074
abbrev vbus : Nat := 0x40007080
abbrev vrack : Nat := 0x40007084
abbrev vsw : Nat := 0x40007088
abbrev ish : Nat := 0x4000708C
abbrev ishv : Nat := 0x40007090
abbrev psh : Nat := 0x40007094
abbrev ipeak : Nat := 0x40007098
abbrev i2tlvl : Nat := 0x4000709C
abbrev eoutlo : Nat := 0x400070A0
abbrev eouthi : Nat := 0x400070A4
abbrev einlo : Nat := 0x400070A8
abbrev einhi : Nat := 0x400070AC
abbrev eldlo : Nat := 0x400070B0
abbrev eldhi : Nat := 0x400070B4
abbrev eldcmt : Nat := 0x400070B8
abbrev cmpCfg (i : Nat) : Nat := 0x40007100 + 8 * i
abbrev cmpTh (i : Nat) : Nat := 0x40007104 + 8 * i
abbrev cmpstat : Nat := 0x40007140
end Reg

/-! THERM (Table 11.2). -/
namespace Reg
abbrev thctl : Nat := 0x40008000
abbrev thstat : Nat := 0x40008004
abbrev dietemp : Nat := 0x40008008
abbrev diesens : Nat := 0x4000800C
abbrev diebth : Nat := 0x40008010
abbrev dielim : Nat := 0x40008014
abbrev loopband : Nat := 0x40008018
abbrev rorcfg : Nat := 0x4000801C
abbrev brkcfg : Nat := 0x40008020
abbrev ppLoss (i : Nat) : Nat := 0x40008040 + 0x20 * i
abbrev ppSw (i : Nat) : Nat := 0x40008044 + 0x20 * i
abbrev ppCore (i : Nat) : Nat := 0x40008048 + 0x20 * i
abbrev ppLim (i : Nat) : Nat := 0x4000804C + 0x20 * i
abbrev ppBth (i : Nat) : Nat := 0x40008050 + 0x20 * i
abbrev ppDtp (i : Nat) : Nat := 0x40008054 + 0x20 * i
abbrev tslot (i : Nat) : Nat := 0x40008100 + 4 * i
abbrev extt (i : Nat) : Nat := 0x40008300 + 4 * i
abbrev tst (i : Nat) : Nat := 0x40008500 + 8 * i
abbrev tmod (i : Nat) : Nat := 0x40008504 + 8 * i
abbrev kthsug (i : Nat) : Nat := 0x40008900 + 4 * i
abbrev sband (i : Nat) : Nat := 0x40008980 + 4 * i
abbrev broken (i : Nat) : Nat := 0x400089A0 + 4 * i
abbrev warnr (i : Nat) : Nat := 0x400089B0 + 4 * i
end Reg

/-! SEQ (Table 12.9). -/
namespace Reg
abbrev seqctl : Nat := 0x40009000
abbrev seqstat : Nat := 0x40009004
abbrev seqcmd : Nat := 0x40009008
abbrev seqent : Nat := 0x4000900C
abbrev seqpc : Nat := 0x40009010
abbrev railon : Nat := 0x40009014
abbrev railcmd : Nat := 0x40009018
abbrev railclr : Nat := 0x4000901C
abbrev fltrail : Nat := 0x40009020
abbrev syncstat : Nat := 0x40009024
abbrev synccfg : Nat := 0x40009028
abbrev syncset : Nat := 0x4000902C
abbrev auxcfg : Nat := 0x40009030
abbrev auxlo : Nat := 0x40009034
abbrev auxhi : Nat := 0x40009038
abbrev swflag : Nat := 0x4000903C
abbrev rnCfg (i : Nat) : Nat := 0x40009100 + 0x10 * i
abbrev rnTim (i : Nat) : Nat := 0x40009104 + 0x10 * i
abbrev rnQual (i : Nat) : Nat := 0x40009108 + 0x10 * i
abbrev rnDch (i : Nat) : Nat := 0x4000910C + 0x10 * i
abbrev rnStat (i : Nat) : Nat := 0x40009200 + 4 * i
abbrev stepMem (i : Nat) : Nat := 0x40009800 + 4 * i
end Reg

/-! STRAND (Table 14.5). -/
namespace Reg
abbrev strcmd : Nat := 0x4000A000
abbrev strstat : Nat := 0x4000A004
abbrev quant : Nat := 0x4000A008
abbrev evseq : Nat := 0x4000A00C
abbrev swev : Nat := 0x4000A010
abbrev evqpop : Nat := 0x4000A014
abbrev evqseq : Nat := 0x4000A018
abbrev evqinf : Nat := 0x4000A01C
abbrev evqtlo : Nat := 0x4000A020
abbrev evqthi : Nat := 0x4000A024
abbrev evqcnt : Nat := 0x4000A028
abbrev snCtl (i : Nat) : Nat := 0x4000A040 + 0x10 * i
abbrev snPc (i : Nat) : Nat := 0x4000A044 + 0x10 * i
abbrev snStat (i : Nat) : Nat := 0x4000A048 + 0x10 * i
abbrev snStarv (i : Nat) : Nat := 0x4000A04C + 0x10 * i
abbrev route (i : Nat) : Nat := 0x4000A100 + 4 * i
abbrev evpend (i : Nat) : Nat := 0x4000A300 + 4 * i
end Reg

/-! PMON (Table 14.10). -/
namespace Reg
abbrev pmctl : Nat := 0x4000B000
abbrev pmstat : Nat := 0x4000B004
abbrev pmrlo : Nat := 0x4000B008
abbrev pmrhi : Nat := 0x4000B00C
abbrev cntCfg (i : Nat) : Nat := 0x4000B040 + 0x10 * i
abbrev cntLo (i : Nat) : Nat := 0x4000B044 + 0x10 * i
abbrev cntHi (i : Nat) : Nat := 0x4000B048 + 0x10 * i
end Reg

/-! MEM (Table 15.7). -/
namespace Reg
abbrev memctl : Nat := 0x4000C000
abbrev memstat : Nat := 0x4000C004
abbrev loginf : Nat := 0x4000C008
abbrev logaddr : Nat := 0x4000C00C
abbrev logtlo : Nat := 0x4000C010
abbrev logthi : Nat := 0x4000C014
abbrev logpop : Nat := 0x4000C018
abbrev flcmd : Nat := 0x4000C01C
abbrev fladdr : Nat := 0x4000C020
abbrev chkctl : Nat := 0x4000C024
abbrev chkbits : Nat := 0x4000C028
abbrev chkrd : Nat := 0x4000C02C
abbrev repair : Nat := 0x4000C030
abbrev scrpos : Nat := 0x4000C034
abbrev scrcnt : Nat := 0x4000C038
abbrev fcorr : Nat := 0x4000C03C
abbrev poison (i : Nat) : Nat := 0x4000C040 + 4 * i
abbrev retireReg (i : Nat) : Nat := 0x4000C060 + 4 * i
end Reg

/-! REC (Table 15.10). -/
namespace Reg
abbrev recctl : Nat := 0x4000D000
abbrev recstat : Nat := 0x4000D004
abbrev reccfg : Nat := 0x4000D008
abbrev wptr : Nat := 0x4000D00C
abbrev newest : Nat := 0x4000D010
abbrev oldest : Nat := 0x4000D014
abbrev bufcnt : Nat := 0x4000D018
abbrev lostReg : Nat := 0x4000D01C
abbrev frzcnt : Nat := 0x4000D020
abbrev optime : Nat := 0x4000D024
abbrev pcyc : Nat := 0x4000D028
abbrev gapseq : Nat := 0x4000D02C
abbrev cursor (i : Nat) : Nat := 0x4000D040 + 0x40 * i
abbrev winstat (i : Nat) : Nat := 0x4000D044 + 0x40 * i
abbrev win0 (i : Nat) : Nat := 0x4000D060 + 4 * i
abbrev win1 (i : Nat) : Nat := 0x4000D0A0 + 4 * i
abbrev snapstat : Nat := 0x4000D100
abbrev snaplock : Nat := 0x4000D104
abbrev snapsel : Nat := 0x4000D108
abbrev snapdata : Nat := 0x4000D10C
end Reg

/-! ADC (Table 16.2). -/
namespace Reg
abbrev adcctl : Nat := 0x4000E000
abbrev adcstat : Nat := 0x4000E004
abbrev adcref : Nat := 0x4000E008
abbrev extuv : Nat := 0x4000E00C
abbrev ratuv : Nat := 0x4000E010
abbrev adccal : Nat := 0x4000E014
abbrev calReg (i : Nat) : Nat := 0x4000E018 + 4 * i
abbrev injreq : Nat := 0x4000E020
abbrev injq : Nat := 0x4000E024
abbrev injlo : Nat := 0x4000E028
abbrev injhi : Nat := 0x4000E02C
abbrev vtxset : Nat := 0x4000E030
abbrev rseqCtl (i : Nat) : Nat := 0x4000E040 + 0x40 * i
abbrev rseqE0 (i : Nat) : Nat := 0x4000E044 + 4 * i
abbrev rseqE1 (i : Nat) : Nat := 0x4000E084 + 4 * i
abbrev chLo (i : Nat) : Nat := 0x4000E100 + 8 * i
abbrev chHi (i : Nat) : Nat := 0x4000E104 + 8 * i
abbrev chOfs (i : Nat) : Nat := 0x4000E200 + 8 * i
abbrev chGain (i : Nat) : Nat := 0x4000E204 + 8 * i
end Reg

/-! TWB0 (Table 17.6). -/
namespace Reg
abbrev twbctl : Nat := 0x4000F000
abbrev twbstat : Nat := 0x4000F004
abbrev twbaddr : Nat := 0x4000F008
abbrev timcfg : Nat := 0x4000F00C
abbrev pmbstate : Nat := 0x4000F010
abbrev notice : Nat := 0x4000F014
abbrev alrtpend (i : Nat) : Nat := 0x4000F020 + 4 * i
abbrev ibrpend (i : Nat) : Nat := 0x4000F030 + 4 * i
abbrev hcmdq : Nat := 0x4000F040
abbrev hcmdinf : Nat := 0x4000F044
abbrev hcmdpop : Nat := 0x4000F048
abbrev winlo : Nat := 0x4000F050
abbrev winhi : Nat := 0x4000F054
abbrev winlock : Nat := 0x4000F058
abbrev ctlctl : Nat := 0x4000F060
abbrev ctlstat : Nat := 0x4000F064
abbrev ctlbuf (i : Nat) : Nat := 0x4000F080 + 4 * i
abbrev twbcnt : Nat := 0x4000F0A0
abbrev pstat (i : Nat) : Nat := 0x4000F400 + 4 * i
end Reg

/-! TWB1 (Table 17.9). -/
namespace Reg
abbrev lctl : Nat := 0x40010000
abbrev lstat : Nat := 0x40010004
abbrev lxfer : Nat := 0x40010008
abbrev lwbuf (i : Nat) : Nat := 0x40010010 + 4 * i
abbrev lrbuf (i : Nat) : Nat := 0x40010020 + 4 * i
abbrev lcnt : Nat := 0x40010030
end Reg

/-! AGE (Table 9.9). -/
namespace Reg
abbrev agectl : Nat := 0x40013000
abbrev agestat : Nat := 0x40013004
abbrev vcoreReg : Nat := 0x40013008
abbrev vlim : Nat := 0x4001300C
abbrev slklast : Nat := 0x40013010
abbrev slkmin : Nat := 0x40013014
abbrev slkwin : Nat := 0x40013018
abbrev slktgt : Nat := 0x4001301C
abbrev plancfg : Nat := 0x40013020
abbrev esccfg : Nat := 0x40013024
abbrev cancfg : Nat := 0x40013028
abbrev canres : Nat := 0x4001302C
abbrev advper : Nat := 0x40013030
abbrev advchord : Nat := 0x40013034
abbrev moves : Nat := 0x40013038
end Reg

/-! FUSE (Table 18.8). -/
namespace Reg
abbrev fcmd : Nat := 0x40014000
abbrev fstat : Nat := 0x40014004
abbrev faddr : Nat := 0x40014008
abbrev fdata : Nat := 0x4001400C
abbrev fread : Nat := 0x40014010
abbrev flock : Nat := 0x40014014
abbrev fshw (i : Nat) : Nat := 0x40014100 + 4 * i
end Reg

/-! UPD (Table 18.6). -/
namespace Reg
abbrev updcmd : Nat := 0x40015000
abbrev updstat : Nat := 0x40015004
abbrev updguard : Nat := 0x40015008
abbrev socmean : Nat := 0x4001500C
abbrev updplim : Nat := 0x40015010
abbrev trialcfg : Nat := 0x40015014
abbrev updtime : Nat := 0x40015018
abbrev sfvcur : Nat := 0x4001501C
abbrev upddata : Nat := 0x40015020
abbrev updptr : Nat := 0x40015024
abbrev updiver : Nat := 0x40015028
abbrev bootinf : Nat := 0x4001502C
abbrev updlock : Nat := 0x40015030
end Reg

/-! GPIO (Table 14.8). -/
namespace Reg
abbrev gpdir : Nat := 0x40016000
abbrev gpout : Nat := 0x40016004
abbrev gpod : Nat := 0x40016008
abbrev gpin : Nat := 0x4001600C
abbrev gpeven : Nat := 0x40016010
abbrev gpevst : Nat := 0x40016014
abbrev inunst : Nat := 0x40016018
abbrev incfg (i : Nat) : Nat := 0x40016100 + 4 * i
abbrev instat (i : Nat) : Nat := 0x40016200 + 4 * i
end Reg

/-- One row of a register table: `count` registers from `base`, `stride` apart (R8, Table 0.4). A bit in none of the
masks is read-only, write-only or reserved: what it reads is computed. -/
structure RegRow where
  base   : Nat
  stride : Nat
  count  : Nat
  rw     : Word
  lk     : Word
  lockAt : Nat
  w1c    : Word
  rc     : Word
  reset  : Word
  deriving DecidableEq, Repr

/-- CRC: Table 0.7. -/
def regRowsCRC : List RegRow :=
  [ ⟨Reg.crcctl, 4, 1, 0, 0, 0, 0, 0, 0⟩,
    ⟨Reg.crcdata, 4, 1, 0, 0, 0, 0, 0, 0⟩,
    ⟨Reg.crcbyte, 4, 1, 0, 0, 0, 0, 0, 0⟩,
    ⟨Reg.crcres, 4, 1, 0, 0, 0, 0, 0, 0⟩,
    ⟨Reg.crcstate, 4, 1, 0, 0, 0, 0, 0, 0⟩ ]

/-- TGRID: Table 1.9. -/
def regRowsTGRID : List RegRow :=
  [ ⟨Reg.tgctl, 4, 1, 0, 7, Reg.tglock, 0, 0, 0⟩,
    ⟨Reg.tgstat, 4, 1, 0, 0, 0, 0x50, 0, 0⟩,
    ⟨Reg.ticklo, 4, 1, 0, 0, 0, 0, 0, 0⟩,
    ⟨Reg.tickhi, 4, 1, 0, 0, 0, 0, 0, 0⟩,
    ⟨Reg.period, 4, 1, 0x7FFF, 0, 0, 0, 0, 0x7D0⟩,
    ⟨Reg.updl, 4, 1, 0x7FFF, 0, 0, 0, 0, 0x352⟩,
    ⟨Reg.chordr, 4, 1, 0x7FFF, 0, 0, 0, 0, 0x578⟩,
    ⟨Reg.percommit, 4, 1, 0, 0, 0, 0, 0, 0⟩,
    ⟨Reg.perseq, 4, 1, 0, 0, 0, 0, 0, 0⟩,
    ⟨Reg.vtxlo, 4, 1, 0, 0, 0, 0, 0, 0⟩,
    ⟨Reg.vtxhi, 4, 1, 0, 0, 0, 0, 0, 0⟩,
    ⟨Reg.ppslo, 4, 1, 0, 0, 0, 0, 0, 0⟩,
    ⟨Reg.ppshi, 4, 1, 0, 0, 0, 0, 0, 0⟩,
    ⟨Reg.ppswin, 4, 1, 0, 0xFFFFF, Reg.tglock, 0, 0, 0x4E20⟩,
    ⟨Reg.ppserr, 4, 1, 0, 0, 0, 0, 0, 0⟩,
    ⟨Reg.trim, 4, 1, 0xFFFF, 0, 0, 0, 0, 0⟩,
    ⟨Reg.ppscnt, 4, 1, 0, 0, 0, 0, 0, 0⟩,
    ⟨Reg.tglock, 4, 1, 0, 0, 0, 0, 0, 0⟩ ]

/-- SYS: Table 3.6. -/
def regRowsSYS : List RegRow :=
  [ ⟨Reg.devid, 4, 1, 0, 0, 0, 0, 0, 0x12800201⟩,
    ⟨Reg.state, 4, 1, 0, 0, 0, 0, 0, 0⟩,
    ⟨Reg.rstcause, 4, 1, 0, 0, 0, 0, 0, 0⟩,
    ⟨Reg.bootstat, 4, 1, 0, 0, 0, 0, 0, 0⟩,
    ⟨Reg.bootdone, 4, 1, 0, 0, 0, 0, 0, 0⟩,
    ⟨Reg.swrst, 4, 1, 0, 0, 0, 0, 0, 0⟩,
    ⟨Reg.pwrctl, 4, 1, 7, 0, 0, 0, 0, 0⟩,
    ⟨Reg.pwrstat, 4, 1, 0, 0, 0, 0x700, 0, 0⟩,
    ⟨Reg.drst, 4, 1, 0, 0, 0, 0, 0, 0⟩,
    ⟨Reg.vmon, 4, 1, 0, 0, 0, 0, 0, 0⟩,
    ⟨Reg.shipctl, 4, 1, 0, 0, 0, 0, 0, 0⟩,
    ⟨Reg.shipstat, 4, 1, 0, 0, 0, 0x1F, 0, 0⟩,
    ⟨Reg.fltclr, 4, 1, 0, 0, 0, 0, 0, 0⟩,
    ⟨Reg.wdtctl, 4, 1, 0, 0x7FF, Reg.syslock, 0, 0, 0x64⟩,
    ⟨Reg.wdtkick, 4, 1, 0, 0, 0, 0, 0, 0⟩,
    ⟨Reg.syslock, 4, 1, 0, 0, 0, 0, 0, 0⟩ ]

/-- HUB: Table 4.13. -/
def regRowsHUB : List RegRow :=
  [ ⟨Reg.hubctl, 4, 1, 1, 0, 0, 0, 0, 0⟩,
    ⟨Reg.hubstat, 4, 1, 0, 0, 0, 0x70, 0, 0⟩,
    ⟨Reg.hubcfg, 4, 1, 0x30F, 0, 0, 0, 0, 0x304⟩,
    ⟨Reg.holdctl, 4, 1, 1, 0, 0, 0, 0, 0⟩,
    ⟨Reg.mboxctl, 4, 1, 0xFF077F, 0, 0, 0, 0, 0⟩,
    ⟨Reg.mboxdata, 4, 1, 0xFFFF, 0, 0, 0, 0, 0⟩,
    ⟨Reg.slotiso 0, 4, 4, 0xFFFFFFFF, 0, 0, 0, 0, 0⟩,
    ⟨Reg.admitted 0, 4, 4, 0, 0, 0, 0, 0, 0⟩,
    ⟨Reg.fresh 0, 4, 4, 0, 0, 0, 0, 0, 0⟩,
    ⟨Reg.chctl 0, 4, 8, 0xF1F1, 0, 0, 0, 0, 0⟩,
    ⟨Reg.chstat 0, 4, 8, 0, 0, 0, 0x11C000, 0, 0⟩,
    ⟨Reg.cherr 0, 4, 8, 0, 0, 0, 0, 0xFFFFFFFF, 0⟩,
    ⟨Reg.slotcfg 0, 4, 128, 0x1F, 0, 0, 0, 0, 0⟩,
    ⟨Reg.slotstat 0, 4, 128, 0, 0, 0, 0x100, 0, 0⟩,
    ⟨Reg.slotdly 0, 4, 128, 0, 0, 0, 0, 0, 0⟩ ]

/-- LOOP: Table 5.8, Table 9.6. -/
def regRowsLOOP : List RegRow :=
  [ ⟨Reg.loopstat, 4, 1, 0, 0, 0, 8, 0, 0⟩,
    ⟨Reg.ovrcnt, 4, 1, 0, 0, 0, 0, 0xFFFF, 0⟩,
    ⟨Reg.coefcmt, 4, 1, 0, 0, 0, 0, 0, 0⟩,
    ⟨Reg.injctl, 4, 1, 0x73F, 0, 0, 0, 0, 0⟩,
    ⟨Reg.injamp, 4, 1, 0xFFFF, 0, 0, 0, 0, 0⟩,
    ⟨Reg.injfrq, 4, 1, 0xFFFFFFFF, 0, 0, 0, 0, 0⟩,
    ⟨Reg.injseed, 4, 1, 0x7FFF, 0, 0, 0, 0, 1⟩,
    ⟨Reg.injstat, 4, 1, 0, 0, 0, 2, 0, 0⟩,
    ⟨Reg.capctl, 4, 1, 0x7F, 0, 0, 0, 0, 0⟩,
    ⟨Reg.capbase, 4, 1, 0xFFFFFFFF, 0, 0, 0, 0, 0x20030000⟩,
    ⟨Reg.capstat, 4, 1, 0, 0, 0, 0x73, 0, 0⟩,
    ⟨Reg.capptr, 4, 1, 0, 0, 0, 0, 0, 0⟩,
    ⟨Reg.lnCfg 0, 0x80, 4, 0x1F3FFF, 0, 0, 0, 0, 0⟩,
    ⟨Reg.lnStat 0, 0x80, 4, 0, 0, 0, 0x1E0000, 0, 0⟩,
    ⟨Reg.lnVmeas 0, 0x80, 4, 0, 0, 0, 0, 0, 0⟩,
    ⟨Reg.lnTgt 0, 0x80, 4, 0, 0, 0, 0, 0, 0⟩,
    ⟨Reg.lnPos 0, 0x80, 4, 0, 0, 0, 0, 0, 0⟩,
    ⟨Reg.lnGoal 0, 0x80, 4, 0, 0, 0, 0, 0, 0⟩,
    ⟨Reg.lnCmd 0, 0x80, 4, 0, 0, 0, 0, 0, 0⟩,
    ⟨Reg.lnErr 0, 0x80, 4, 0, 0, 0, 0, 0, 0⟩ ] ++
  [ ⟨Reg.lnUout 0, 0x80, 4, 0, 0, 0, 0, 0, 0⟩,
    ⟨Reg.lnFfout 0, 0x80, 4, 0, 0, 0, 0, 0, 0⟩,
    ⟨Reg.lnLlout 0, 0x80, 4, 0, 0, 0, 0, 0, 0⟩,
    ⟨Reg.lnIflt 0, 0x80, 4, 0, 0, 0, 0, 0, 0⟩,
    ⟨Reg.lnIth01 0, 0x80, 4, 0xFFFFFFFF, 0, 0, 0, 0, 0xFFFFFFFF⟩,
    ⟨Reg.lnIth2 0, 0x80, 4, 0xFFFFFFFF, 0, 0, 0, 0, 0xFFFF⟩,
    ⟨Reg.lnNth 0, 0x80, 4, 0xFFFFFFFF, 0, 0, 0, 0, 0xFFFFFF⟩,
    ⟨Reg.lnFilt 0, 0x80, 4, 0xF77, 0, 0, 0, 0, 0x102⟩,
    ⟨Reg.lnCbus 0, 0x80, 4, 0xFFFFF, 0, 0, 0, 0, 0⟩,
    ⟨Reg.lnVffnom 0, 0x80, 4, 0xFFFFFFFF, 0, 0, 0, 0, 0⟩,
    ⟨Reg.lnVffmin 0, 0x80, 4, 0xFFFFFFFF, 0, 0, 0, 0, 0⟩,
    ⟨Reg.lnBrk 0, 0x80, 4, 0xFFFFFFFF, 0, 0, 0, 0, 0⟩,
    ⟨Reg.lnBrkn 0, 0x80, 4, 0x10F, 0, 0, 0, 0, 1⟩,
    ⟨Reg.lnSetl 0, 0x80, 4, 0xFFFFFF, 0, 0, 0, 0, 0x80064⟩,
    ⟨Reg.lnElim 0, 0x80, 4, 0xFFFF, 0, 0, 0, 0, 0xFFFF⟩,
    ⟨Reg.lnRgntab 0, 4, 32, 0xFFFFFFFF, 0, 0, 0, 0, 0⟩,
    ⟨Reg.csB0 0, 0x20, 16, 0xFFFFFFFF, 0, 0, 0, 0, 0⟩,
    ⟨Reg.csB1 0, 0x20, 16, 0xFFFFFFFF, 0, 0, 0, 0, 0⟩,
    ⟨Reg.csB2 0, 0x20, 16, 0xFFFFFFFF, 0, 0, 0, 0, 0⟩,
    ⟨Reg.csB3 0, 0x20, 16, 0xFFFFFFFF, 0, 0, 0, 0, 0⟩ ] ++
  [ ⟨Reg.csA1 0, 0x20, 16, 0xFFFFFFFF, 0, 0, 0, 0, 0⟩,
    ⟨Reg.csA2 0, 0x20, 16, 0xFFFFFFFF, 0, 0, 0, 0, 0⟩,
    ⟨Reg.csA3 0, 0x20, 16, 0xFFFFFFFF, 0, 0, 0, 0, 0⟩,
    ⟨Reg.csShift 0, 0x20, 16, 0x1F, 0, 0, 0, 0, 0⟩,
    ⟨Reg.tilectl, 4, 1, 1, 0, 0, 0, 0, 1⟩,
    ⟨Reg.tilestat, 4, 1, 0, 0, 0, 0x300, 0, 0⟩,
    ⟨Reg.failcnt, 4, 1, 0, 0, 0, 0, 0xFFFFFFFF, 0⟩,
    ⟨Reg.wcsr, 4, 1, 0xFFFF, 0, 0, 0, 0, 0xFFFF⟩,
    ⟨Reg.tnPlen 0, 0x10, 2, 0x3FFF, 0, 0, 0, 0, 0⟩,
    ⟨Reg.tnPchk 0, 0x10, 2, 0xFFFFFFFF, 0, 0, 0, 0, 0⟩,
    ⟨Reg.tnArm 0, 0x10, 2, 0, 0, 0, 0, 0, 0⟩,
    ⟨Reg.tnDiag 0, 0x10, 2, 0, 0, 0, 0, 0, 0⟩ ]

/-- SPL: Table 6.8. -/
def regRowsSPL : List RegRow :=
  [ ⟨Reg.splctl, 4, 1, 0xFF03, 0, 0, 0, 0, 0x100⟩,
    ⟨Reg.splstat, 4, 1, 0, 0, 0, 0xFE, 0, 0⟩,
    ⟨Reg.lseq, 4, 1, 0, 0, 0, 0, 0, 0⟩,
    ⟨Reg.lastfrm, 4, 1, 0, 0, 0, 0, 0, 0⟩,
    ⟨Reg.lastrsp, 4, 1, 0, 0, 0, 0, 0, 0⟩,
    ⟨Reg.splcnta, 4, 1, 0, 0, 0, 0, 0xFFFFFFFF, 0⟩,
    ⟨Reg.splcntb, 4, 1, 0, 0, 0, 0, 0xFFFFFFFF, 0⟩,
    ⟨Reg.qstat, 4, 1, 0, 0, 0, 0, 0, 0⟩ ]

/-- ALLOC: Table 7.10. -/
def regRowsALLOC : List RegRow :=
  [ ⟨Reg.allocctl, 4, 1, 0xFF1, 0, 0, 0, 0, 0⟩,
    ⟨Reg.allocstat, 4, 1, 0, 0, 0, 0xAFF, 0, 0⟩,
    ⟨Reg.dseed, 4, 1, 0x7FFF, 0, 0, 0, 0, 1⟩,
    ⟨Reg.dgen, 4, 1, 0, 0, 0, 0, 0, 0⟩,
    ⟨Reg.rotiv, 4, 1, 0xFFFF, 0, 0, 0, 0, 0xE10⟩,
    ⟨Reg.caprel, 4, 1, 0xFFFF, 0, 0, 0, 0, 0x1F4⟩,
    ⟨Reg.actmask 0, 4, 4, 0, 0, 0, 0, 0, 0⟩,
    ⟨Reg.dithact 0, 4, 4, 0, 0, 0, 0, 0, 0⟩,
    ⟨Reg.rectav 0, 4, 4, 0, 0, 0, 0, 0, 0⟩,
    ⟨Reg.lnPhctl 0, 0x40, 4, 0xFFFF0F, 0, 0, 0, 0, 0xA0A04⟩,
    ⟨Reg.lnShdly 0, 0x40, 4, 0xFFFF, 0, 0, 0, 0, 0x3E8⟩,
    ⟨Reg.lnDtot 0, 0x40, 4, 0xFFFFFFFF, 0, 0, 0, 0, 0⟩,
    ⟨Reg.lnRtot 0, 0x40, 4, 0, 0, 0, 0, 0, 0⟩,
    ⟨Reg.lnBtot 0, 0x40, 4, 0, 0, 0, 0, 0, 0⟩,
    ⟨Reg.lnIcap 0, 0x40, 4, 0, 0, 0, 0, 0, 0⟩,
    ⟨Reg.lnCnt 0, 0x40, 4, 0, 0, 0, 0, 0, 0⟩,
    ⟨Reg.lnBf 0, 0x40, 4, 0, 0, 0, 0, 0, 0⟩,
    ⟨Reg.lnPhtab0 0, 4, 8, 0xFFFFFF, 0, 0, 0, 0, 0⟩,
    ⟨Reg.lnPhtab1 0, 4, 8, 0xFFFFFF, 0, 0, 0, 0, 0⟩,
    ⟨Reg.lnPhtab2 0, 4, 8, 0xFFFFFF, 0, 0, 0, 0, 0⟩ ] ++
  [ ⟨Reg.lnPhtab3 0, 4, 8, 0xFFFFFF, 0, 0, 0, 0, 0⟩,
    ⟨Reg.slim 0, 4, 128, 0xFFFFFFFF, 0, 0, 0, 0, 0⟩,
    ⟨Reg.runt 0, 4, 128, 0xFFFFFFFF, 0, 0, 0, 0, 0⟩ ]

/-- EST: Table 8.8. -/
def regRowsEST : List RegRow :=
  [ ⟨Reg.estctl, 4, 1, 7, 0, 0, 0, 0, 0⟩,
    ⟨Reg.eststat, 4, 1, 0, 0, 0, 6, 0, 0⟩,
    ⟨Reg.qadjslot, 4, 1, 0x7F, 0, 0, 0, 0, 0⟩,
    ⟨Reg.qadjlo, 4, 1, 0xFFFFFFFF, 0, 0, 0, 0, 0⟩,
    ⟨Reg.qadjhi, 4, 1, 0xFFFFFFFF, 0, 0, 0, 0, 0⟩,
    ⟨Reg.qadjcmt, 4, 1, 0, 0, 0, 0, 0, 0⟩,
    ⟨Reg.estqual, 4, 1, 0xFFFFFFFF, 0, 0, 0, 0, 0x3E80A0A⟩,
    ⟨Reg.etas 0, 4, 3, 0x1FFFF, 0, 0, 0, 0, 0x10000⟩,
    ⟨Reg.veods 0, 8, 3, 0xFFFF, 0, 0, 0, 0, 0⟩,
    ⟨Reg.veocs 0, 8, 3, 0xFFFF, 0, 0, 0, 0, 0xFFFF⟩,
    ⟨Reg.fechip, 4, 1, 0xFFFF, 0, 0, 0, 0, 0⟩,
    ⟨Reg.evraise, 4, 1, 0, 0, 0, 0, 0, 0⟩,
    ⟨Reg.recbase, 4, 1, 0xFFFFE000, 0, 0, 0, 0, 0x2002E000⟩,
    ⟨Reg.bepar0, 4, 1, 0x3FFFF0F, 0, 0, 0, 0, 0x300400A⟩,
    ⟨Reg.bepar1, 4, 1, 0xFFFFF3FF, 0, 0, 0, 0, 0x1F44100⟩,
    ⟨Reg.bepar2, 4, 1, 0xFFFFFFFF, 0, 0, 0, 0, 0x200A0064⟩,
    ⟨Reg.bepar3, 4, 1, 0xFFFFFFFF, 0, 0, 0, 0, 0x1F403E8⟩,
    ⟨Reg.bepar4, 4, 1, 0xFFFF0F, 0, 0, 0, 0, 0x280A01⟩,
    ⟨Reg.eodmask 0, 4, 4, 0, 0, 0, 0, 0, 0⟩,
    ⟨Reg.eocmask 0, 4, 4, 0, 0, 0, 0, 0, 0⟩ ] ++
  [ ⟨Reg.lgap 0, 4, 4, 0, 0, 0, 0xFFFFFFFF, 0, 0⟩,
    ⟨Reg.eslot 0, 4, 128, 0xFFFFFFF, 0, 0, 0, 0, 0⟩,
    ⟨Reg.qlo 0, 8, 128, 0, 0, 0, 0, 0, 0⟩,
    ⟨Reg.qhi 0, 8, 128, 0, 0, 0, 0, 0, 0⟩,
    ⟨Reg.chem0 0, 4, 148, 0xFFFFFFFF, 0, 0, 0, 0, 0⟩,
    ⟨Reg.chem1 0, 4, 148, 0xFFFFFFFF, 0, 0, 0, 0, 0⟩,
    ⟨Reg.chem2 0, 4, 148, 0xFFFFFFFF, 0, 0, 0, 0, 0⟩ ]

/-- GATE: Table 10.8. -/
def regRowsGATE : List RegRow :=
  [ ⟨Reg.gcmd, 4, 1, 0, 0, 0, 0, 0, 0⟩,
    ⟨Reg.gstat, 4, 1, 0, 0, 0, 0xC7FF0, 0, 0⟩,
    ⟨Reg.tripcause, 4, 1, 0, 0, 0, 0, 0, 0⟩,
    ⟨Reg.causeclr, 4, 1, 0, 0, 0, 0, 0, 0⟩,
    ⟨Reg.gcfg, 4, 1, 0, 0xF, Reg.glock, 0, 0, 4⟩,
    ⟨Reg.glock, 4, 1, 0, 0, 0, 0, 0, 0⟩,
    ⟨Reg.triptlo, 4, 1, 0, 0, 0, 0, 0, 0⟩,
    ⟨Reg.tripthi, 4, 1, 0, 0, 0, 0, 0, 0⟩,
    ⟨Reg.leakcfg, 4, 1, 0xFFFFFF, 0, 0, 0, 0, 0x8003E8⟩,
    ⟨Reg.precfg, 4, 1, 0xFFFFFFFF, 0, 0, 0, 0, 0x138801F4⟩,
    ⟨Reg.rampcfg, 4, 1, 0xFFFFFFFF, 0, 0, 0, 0, 0x7D000C8⟩,
    ⟨Reg.concfg, 4, 1, 0xFFFFFFFF, 0, 0, 0, 0, 0x140064⟩,
    ⟨Reg.predv, 4, 1, 0xFFFFFFFF, 0, 0, 0, 0, 0x1388⟩,
    ⟨Reg.preshi, 4, 1, 0xFFFFFFFF, 0, 0, 0, 0, 0x2710⟩,
    ⟨Reg.conioff, 4, 1, 0xFFFFFFFF, 0, 0, 0, 0, 0x3E8⟩,
    ⟨Reg.ovlim, 4, 1, 0xFFFFFFFF, 0, 0, 0, 0, 0⟩,
    ⟨Reg.uvlim, 4, 1, 0xFFFFFFFF, 0, 0, 0, 0, 0⟩,
    ⟨Reg.oclim, 4, 1, 0xFFFFFFFF, 0, 0, 0, 0, 0⟩,
    ⟨Reg.ocwarn, 4, 1, 0xFFFFFFFF, 0, 0, 0, 0, 0x7FFFFFFF⟩,
    ⟨Reg.i2tir, 4, 1, 0xFFFF, 0, 0, 0, 0, 0xFFFF⟩ ] ++
  [ ⟨Reg.i2tlim, 4, 1, 0xFFFFFFFF, 0, 0, 0, 0, 0xFFFFFFFF⟩,
    ⟨Reg.revcfg, 4, 1, 0xFFFFFF, 0, 0, 0, 0, 0x8FFFF⟩,
    ⟨Reg.fovp, 4, 1, 0, 0, 0, 0, 0, 0⟩,
    ⟨Reg.fuvp, 4, 1, 0, 0, 0, 0, 0, 0⟩,
    ⟨Reg.focp, 4, 1, 0, 0, 0, 0, 0, 0⟩,
    ⟨Reg.fvset, 4, 1, 0, 0, 0, 0, 0, 0⟩,
    ⟨Reg.fmax, 4, 1, 0, 0, 0, 0, 0, 0⟩,
    ⟨Reg.fnslot, 4, 1, 0, 0, 0, 0, 0, 0⟩,
    ⟨Reg.vbus, 4, 1, 0, 0, 0, 0, 0, 0⟩,
    ⟨Reg.vrack, 4, 1, 0, 0, 0, 0, 0, 0⟩,
    ⟨Reg.vsw, 4, 1, 0, 0, 0, 0, 0, 0⟩,
    ⟨Reg.ish, 4, 1, 0, 0, 0, 0, 0, 0⟩,
    ⟨Reg.ishv, 4, 1, 0, 0, 0, 0, 0, 0⟩,
    ⟨Reg.psh, 4, 1, 0, 0, 0, 0, 0, 0⟩,
    ⟨Reg.ipeak, 4, 1, 0, 0, 0, 0, 0xFFFFFFFF, 0⟩,
    ⟨Reg.i2tlvl, 4, 1, 0, 0, 0, 0, 0, 0⟩,
    ⟨Reg.eoutlo, 4, 1, 0, 0, 0, 0, 0, 0⟩,
    ⟨Reg.eouthi, 4, 1, 0, 0, 0, 0, 0, 0⟩,
    ⟨Reg.einlo, 4, 1, 0, 0, 0, 0, 0, 0⟩,
    ⟨Reg.einhi, 4, 1, 0, 0, 0, 0, 0, 0⟩ ] ++
  [ ⟨Reg.eldlo, 4, 1, 0xFFFFFFFF, 0, 0, 0, 0, 0⟩,
    ⟨Reg.eldhi, 4, 1, 0xFFFFFFFF, 0, 0, 0, 0, 0⟩,
    ⟨Reg.eldcmt, 4, 1, 0, 0, 0, 0, 0, 0⟩,
    ⟨Reg.cmpCfg 0, 8, 8, 0xFF7, 0, 0, 0, 0, 0⟩,
    ⟨Reg.cmpTh 0, 8, 8, 0xFFFFFFFF, 0, 0, 0, 0, 0xFFFF0000⟩,
    ⟨Reg.cmpstat, 4, 1, 0, 0, 0, 0x1FFFF00, 0, 0⟩ ]

/-- THERM: Table 11.2. -/
def regRowsTHERM : List RegRow :=
  [ ⟨Reg.thctl, 4, 1, 1, 0, 0, 0, 0, 0⟩,
    ⟨Reg.thstat, 4, 1, 0, 0, 0, 3, 0, 0⟩,
    ⟨Reg.dietemp, 4, 1, 0, 0, 0, 0, 0, 0⟩,
    ⟨Reg.diesens, 4, 1, 0, 0, 0, 0, 0, 0⟩,
    ⟨Reg.diebth, 4, 1, 0xFFFFFFFF, 0, 0, 0, 0, 0x369553C⟩,
    ⟨Reg.dielim, 4, 1, 0xFFFF, 0, 0, 0, 0, 0x573⟩,
    ⟨Reg.loopband, 4, 1, 0, 0, 0, 0, 0, 0⟩,
    ⟨Reg.rorcfg, 4, 1, 0xFFFFFFFF, 0, 0, 0, 0, 0x14003E8⟩,
    ⟨Reg.brkcfg, 4, 1, 0xFFFF, 0, 0, 0, 0, 0x400F⟩,
    ⟨Reg.ppLoss 0, 0x20, 4, 0xFFFFFFFF, 0, 0, 0, 0, 0⟩,
    ⟨Reg.ppSw 0, 0x20, 4, 0xFFFFFFFF, 0, 0, 0, 0, 0⟩,
    ⟨Reg.ppCore 0, 0x20, 4, 0xFFFFFFFF, 0, 0, 0, 0, 0⟩,
    ⟨Reg.ppLim 0, 0x20, 4, 0xFFFFFF, 0, 0, 0, 0, 0x6E5A55⟩,
    ⟨Reg.ppBth 0, 0x20, 4, 0xFFFFFFFF, 0, 0, 0, 0, 0x3503C28⟩,
    ⟨Reg.ppDtp 0, 0x20, 4, 0xFFFF, 0, 0, 0, 0, 0⟩,
    ⟨Reg.tslot 0, 4, 128, 0x1F, 0, 0, 0, 0, 0⟩,
    ⟨Reg.extt 0, 4, 128, 0xFFFF, 0, 0, 0, 0, 0⟩,
    ⟨Reg.tst 0, 8, 128, 0, 0, 0, 0, 0, 0⟩,
    ⟨Reg.tmod 0, 8, 128, 0, 0, 0, 0, 0, 0⟩,
    ⟨Reg.kthsug 0, 4, 32, 0, 0, 0, 0, 0, 0⟩ ] ++
  [ ⟨Reg.sband 0, 4, 8, 0, 0, 0, 0, 0, 0⟩,
    ⟨Reg.broken 0, 4, 4, 0, 0, 0, 0, 0, 0⟩,
    ⟨Reg.warnr 0, 4, 4, 0, 0, 0, 0, 0, 0⟩ ]

/-- SEQ: Table 12.9. -/
def regRowsSEQ : List RegRow :=
  [ ⟨Reg.seqctl, 4, 1, 0xF, 0, 0, 0, 0, 8⟩,
    ⟨Reg.seqstat, 4, 1, 0, 0, 0, 0x710, 0, 0⟩,
    ⟨Reg.seqcmd, 4, 1, 0, 0, 0, 0, 0, 0⟩,
    ⟨Reg.seqent, 4, 1, 0x1FF01FF, 0, 0, 0, 0, 0⟩,
    ⟨Reg.seqpc, 4, 1, 0, 0, 0, 0, 0, 0⟩,
    ⟨Reg.railon, 4, 1, 0, 0, 0, 0, 0, 0⟩,
    ⟨Reg.railcmd, 4, 1, 0, 0, 0, 0, 0, 0⟩,
    ⟨Reg.railclr, 4, 1, 0, 0, 0, 0, 0, 0⟩,
    ⟨Reg.fltrail, 4, 1, 0, 0, 0, 0, 0xFFFFFFFF, 0⟩,
    ⟨Reg.syncstat, 4, 1, 0, 0, 0, 0, 0, 0⟩,
    ⟨Reg.synccfg, 4, 1, 0xFFFF, 0, 0, 0, 0, 0⟩,
    ⟨Reg.syncset, 4, 1, 0, 0, 0, 0, 0, 0⟩,
    ⟨Reg.auxcfg, 4, 1, 0xFFFF, 0, 0, 0, 0, 0x3201⟩,
    ⟨Reg.auxlo, 4, 1, 0xFFFFFFFF, 0, 0, 0, 0, 0⟩,
    ⟨Reg.auxhi, 4, 1, 0xFFFFFFFF, 0, 0, 0, 0, 0⟩,
    ⟨Reg.swflag, 4, 1, 0xFFFF, 0, 0, 0, 0, 0⟩,
    ⟨Reg.rnCfg 0, 0x10, 16, 0xFFFFF031, 0, 0, 0, 0, 0⟩,
    ⟨Reg.rnTim 0, 0x10, 16, 0xFFFFFFFF, 0, 0, 0, 0, 0x640064⟩,
    ⟨Reg.rnQual 0, 0x10, 16, 0xFFFFFFFF, 0, 0, 0, 0, 0xA00080A⟩,
    ⟨Reg.rnDch 0, 0x10, 16, 0xFFFF001F, 0, 0, 0, 0, 0x1F⟩ ] ++
  [ ⟨Reg.rnStat 0, 4, 16, 0, 0, 0, 0x60000, 0, 0⟩,
    ⟨Reg.stepMem 0, 4, 512, 0xFFFFFFFF, 0, 0, 0, 0, 0⟩ ]

/-- STRAND: Table 14.5. -/
def regRowsSTRAND : List RegRow :=
  [ ⟨Reg.strcmd, 4, 1, 0, 0, 0, 0, 0, 0⟩,
    ⟨Reg.strstat, 4, 1, 0, 0, 0, 0x30000, 0, 0⟩,
    ⟨Reg.quant, 4, 1, 0xFFFF, 0, 0, 0, 0, 0x3E8⟩,
    ⟨Reg.evseq, 4, 1, 0, 0, 0, 0, 0, 0⟩,
    ⟨Reg.swev, 4, 1, 0, 0, 0, 0, 0, 0⟩,
    ⟨Reg.evqpop, 4, 1, 0, 0, 0, 0, 0, 0⟩,
    ⟨Reg.evqseq, 4, 1, 0, 0, 0, 0, 0, 0⟩,
    ⟨Reg.evqinf, 4, 1, 0, 0, 0, 0, 0, 0⟩,
    ⟨Reg.evqtlo, 4, 1, 0, 0, 0, 0, 0, 0⟩,
    ⟨Reg.evqthi, 4, 1, 0, 0, 0, 0, 0, 0⟩,
    ⟨Reg.evqcnt, 4, 1, 0, 0, 0, 0, 0, 0⟩,
    ⟨Reg.snCtl 0, 0x10, 8, 0xFFFF0007, 0, 0, 0, 0, 0x3E80000⟩,
    ⟨Reg.snPc 0, 0x10, 8, 0xFFFFFFFC, 0, 0, 0, 0, 0⟩,
    ⟨Reg.snStat 0, 0x10, 8, 0, 0, 0, 0, 0, 0⟩,
    ⟨Reg.snStarv 0, 0x10, 8, 0, 0, 0, 0, 0, 0⟩,
    ⟨Reg.route 0, 4, 128, 0x77F, 0, 0, 0, 0, 0⟩,
    ⟨Reg.evpend 0, 4, 4, 0, 0, 0, 0, 0, 0⟩ ]

/-- PMON: Table 14.10. -/
def regRowsPMON : List RegRow :=
  [ ⟨Reg.pmctl, 4, 1, 3, 0, 0, 0, 0, 0⟩,
    ⟨Reg.pmstat, 4, 1, 0, 0, 0, 0xFF, 0, 0⟩,
    ⟨Reg.pmrlo, 4, 1, 0xFFFFFFFF, 0, 0, 0, 0, 0⟩,
    ⟨Reg.pmrhi, 4, 1, 0xFFFFFFFF, 0, 0, 0, 0, 0xFFFFFFFF⟩,
    ⟨Reg.cntCfg 0, 0x10, 8, 0x3FFFFF, 0, 0, 0, 0, 0⟩,
    ⟨Reg.cntLo 0, 0x10, 8, 0, 0, 0, 0, 0, 0⟩,
    ⟨Reg.cntHi 0, 0x10, 8, 0, 0, 0, 0, 0, 0⟩ ]

/-- MEM: Table 15.7. -/
def regRowsMEM : List RegRow :=
  [ ⟨Reg.memctl, 4, 1, 1, 0, 0, 0, 0, 1⟩,
    ⟨Reg.memstat, 4, 1, 0, 0, 0, 0x27, 0, 0⟩,
    ⟨Reg.loginf, 4, 1, 0, 0, 0, 0, 0, 0⟩,
    ⟨Reg.logaddr, 4, 1, 0, 0, 0, 0, 0, 0⟩,
    ⟨Reg.logtlo, 4, 1, 0, 0, 0, 0, 0, 0⟩,
    ⟨Reg.logthi, 4, 1, 0, 0, 0, 0, 0, 0⟩,
    ⟨Reg.logpop, 4, 1, 0, 0, 0, 0, 0, 0⟩,
    ⟨Reg.flcmd, 4, 1, 0, 0, 0, 0, 0, 0⟩,
    ⟨Reg.fladdr, 4, 1, 0xFFFFF000, 0, 0, 0, 0, 0⟩,
    ⟨Reg.chkctl, 4, 1, 0xF, 0, 0, 0, 0, 0⟩,
    ⟨Reg.chkbits, 4, 1, 0xFF, 0, 0, 0, 0, 0⟩,
    ⟨Reg.chkrd, 4, 1, 0, 0, 0, 0, 0, 0⟩,
    ⟨Reg.repair, 4, 1, 0, 0, 0, 0, 0, 0⟩,
    ⟨Reg.scrpos, 4, 1, 0, 0, 0, 0, 0, 0⟩,
    ⟨Reg.scrcnt, 4, 1, 0, 0, 0, 0, 0xFFFFFFFF, 0⟩,
    ⟨Reg.fcorr, 4, 1, 0, 0, 0, 0, 0xFFFFFFFF, 0⟩,
    ⟨Reg.poison 0, 4, 8, 0, 0, 0, 0, 0, 0⟩,
    ⟨Reg.retireReg 0, 4, 8, 0, 0, 0, 0, 0, 0⟩ ]

/-- REC: Table 15.10. -/
def regRowsREC : List RegRow :=
  [ ⟨Reg.recctl, 4, 1, 0, 0, 0, 0, 0, 0⟩,
    ⟨Reg.recstat, 4, 1, 0, 0, 0, 3, 0, 0⟩,
    ⟨Reg.reccfg, 4, 1, 0xFFFFFF7F, 0, 0, 0, 0, 0x3C0A20⟩,
    ⟨Reg.wptr, 4, 1, 0, 0, 0, 0, 0, 0⟩,
    ⟨Reg.newest, 4, 1, 0, 0, 0, 0, 0, 0⟩,
    ⟨Reg.oldest, 4, 1, 0, 0, 0, 0, 0, 0⟩,
    ⟨Reg.bufcnt, 4, 1, 0, 0, 0, 0, 0, 0⟩,
    ⟨Reg.lostReg, 4, 1, 0, 0, 0, 0, 0, 0⟩,
    ⟨Reg.frzcnt, 4, 1, 0, 0, 0, 0, 0, 0⟩,
    ⟨Reg.optime, 4, 1, 0, 0, 0, 0, 0, 0⟩,
    ⟨Reg.pcyc, 4, 1, 0, 0, 0, 0, 0, 0⟩,
    ⟨Reg.gapseq, 4, 1, 0, 0, 0, 0, 0, 0⟩,
    ⟨Reg.cursor 0, 0x40, 2, 0x1FFF, 0, 0, 0, 0, 0⟩,
    ⟨Reg.winstat 0, 0x40, 2, 0, 0, 0, 0, 0, 0⟩,
    ⟨Reg.win0 0, 4, 8, 0, 0, 0, 0, 0, 0⟩,
    ⟨Reg.win1 0, 4, 8, 0, 0, 0, 0, 0, 0⟩,
    ⟨Reg.snapstat, 4, 1, 0, 0, 0, 0x700, 0, 0⟩,
    ⟨Reg.snaplock, 4, 1, 0xFF, 0, 0, 0, 0, 0⟩,
    ⟨Reg.snapsel, 4, 1, 0xFFC7, 0, 0, 0, 0, 0⟩,
    ⟨Reg.snapdata, 4, 1, 0, 0, 0, 0, 0, 0⟩ ]

/-- ADC: Table 16.2. -/
def regRowsADC : List RegRow :=
  [ ⟨Reg.adcctl, 4, 1, 3, 0, 0, 0, 0, 0⟩,
    ⟨Reg.adcstat, 4, 1, 0, 0, 0, 0x1F0, 0, 0⟩,
    ⟨Reg.adcref, 4, 1, 0xFFFF0003, 0, 0, 0, 0, 0⟩,
    ⟨Reg.extuv, 4, 1, 0xFFFFFFFF, 0, 0, 0, 0, 0x2625A0⟩,
    ⟨Reg.ratuv, 4, 1, 0xFFFFFFFF, 0, 0, 0, 0, 0x325AA0⟩,
    ⟨Reg.adccal, 4, 1, 0, 0, 0, 0, 0, 0⟩,
    ⟨Reg.calReg 0, 4, 2, 0, 0, 0, 0, 0, 0⟩,
    ⟨Reg.injreq, 4, 1, 0, 0, 0, 0, 0, 0⟩,
    ⟨Reg.injq, 4, 1, 0, 0, 0, 0, 0, 0⟩,
    ⟨Reg.injlo, 4, 1, 0, 0, 0, 0, 0, 0⟩,
    ⟨Reg.injhi, 4, 1, 0, 0, 0, 0, 0, 0⟩,
    ⟨Reg.vtxset, 4, 1, 0, 0, 0, 0, 0, 0⟩,
    ⟨Reg.rseqCtl 0, 0x40, 2, 0xFFFF010F, 0, 0, 0, 0, 0⟩,
    ⟨Reg.rseqE0 0, 4, 4, 0x1F1F1F1F, 0, 0, 0, 0, 0⟩,
    ⟨Reg.rseqE1 0, 4, 4, 0x1F1F1F1F, 0, 0, 0, 0, 0⟩,
    ⟨Reg.chLo 0, 8, 24, 0, 0, 0, 0, 0, 0⟩,
    ⟨Reg.chHi 0, 8, 24, 0, 0, 0, 0, 0, 0⟩,
    ⟨Reg.chOfs 0, 8, 24, 0xFFFFFFFF, 0, 0, 0, 0, 0⟩,
    ⟨Reg.chGain 0, 8, 24, 0xFFFFFFFF, 0, 0, 0, 0, 0x4189⟩ ]

/-- TWB0: Table 17.6. -/
def regRowsTWB0 : List RegRow :=
  [ ⟨Reg.twbctl, 4, 1, 0x7F, 0, 0, 0, 0, 0x11⟩,
    ⟨Reg.twbstat, 4, 1, 0, 0, 0, 0x7F0, 0, 0⟩,
    ⟨Reg.twbaddr, 4, 1, 0, 0, 0, 0, 0, 0⟩,
    ⟨Reg.timcfg, 4, 1, 0xFFFFFF, 0, 0, 0, 0, 0xA0A64⟩,
    ⟨Reg.pmbstate, 4, 1, 0, 0, 0, 0, 0, 0⟩,
    ⟨Reg.notice, 4, 1, 0xFFFF0000, 0, 0, 0, 0, 0x10000000⟩,
    ⟨Reg.alrtpend 0, 4, 4, 0, 0, 0, 0xFFFFFFFF, 0, 0⟩,
    ⟨Reg.ibrpend 0, 4, 4, 0, 0, 0, 0xFFFFFFFF, 0, 0⟩,
    ⟨Reg.hcmdq, 4, 1, 0, 0, 0, 0, 0, 0⟩,
    ⟨Reg.hcmdinf, 4, 1, 0, 0, 0, 0, 0, 0⟩,
    ⟨Reg.hcmdpop, 4, 1, 0, 0, 0, 0, 0, 0⟩,
    ⟨Reg.winlo, 4, 1, 0, 0xFFFFFFFF, Reg.winlock, 0, 0, 0xFFFFFFFF⟩,
    ⟨Reg.winhi, 4, 1, 0, 0xFFFFFFFF, Reg.winlock, 0, 0, 0⟩,
    ⟨Reg.winlock, 4, 1, 0, 0, 0, 0, 0, 0⟩,
    ⟨Reg.ctlctl, 4, 1, 0xF1F7F, 0, 0, 0, 0, 0⟩,
    ⟨Reg.ctlstat, 4, 1, 0, 0, 0, 0xE, 0, 0⟩,
    ⟨Reg.ctlbuf 0, 4, 8, 0xFFFFFFFF, 0, 0, 0, 0, 0⟩,
    ⟨Reg.twbcnt, 4, 1, 0, 0, 0, 0, 0xFFFFFFFF, 0⟩,
    ⟨Reg.pstat 0, 4, 148, 0, 0, 0, 0xF03C, 0, 0⟩ ]

/-- TWB1: Table 17.9. -/
def regRowsTWB1 : List RegRow :=
  [ ⟨Reg.lctl, 4, 1, 0xF, 0, 0, 0, 0, 0⟩,
    ⟨Reg.lstat, 4, 1, 0, 0, 0, 0x7E, 0, 0⟩,
    ⟨Reg.lxfer, 4, 1, 0x1F1F7F, 0, 0, 0, 0, 0⟩,
    ⟨Reg.lwbuf 0, 4, 4, 0xFFFFFFFF, 0, 0, 0, 0, 0⟩,
    ⟨Reg.lrbuf 0, 4, 4, 0, 0, 0, 0, 0, 0⟩,
    ⟨Reg.lcnt, 4, 1, 0, 0, 0, 0, 0xFFFFFFFF, 0⟩ ]

/-- AGE: Table 9.9. -/
def regRowsAGE : List RegRow :=
  [ ⟨Reg.agectl, 4, 1, 0xF, 0, 0, 0, 0, 0xF⟩,
    ⟨Reg.agestat, 4, 1, 0, 0, 0, 0x38, 0, 0⟩,
    ⟨Reg.vcoreReg, 4, 1, 0, 0, 0, 0, 0, 0⟩,
    ⟨Reg.vlim, 4, 1, 0x3FF03FF, 0, 0, 0, 0, 0x3E802BC⟩,
    ⟨Reg.slklast, 4, 1, 0, 0, 0, 0, 0, 0⟩,
    ⟨Reg.slkmin, 4, 1, 0, 0, 0, 0, 0xFFFF, 0xFFFF⟩,
    ⟨Reg.slkwin, 4, 1, 0, 0, 0, 0, 0, 0⟩,
    ⟨Reg.slktgt, 4, 1, 0xFFFFFFFF, 0, 0, 0, 0, 0x50484040⟩,
    ⟨Reg.plancfg, 4, 1, 0xFFFFFFFF, 0, 0, 0, 0, 0x10200400⟩,
    ⟨Reg.esccfg, 4, 1, 0xFFFF, 0, 0, 0, 0, 0x3C04⟩,
    ⟨Reg.cancfg, 4, 1, 0xFFFF, 0, 0, 0, 0, 0x608⟩,
    ⟨Reg.canres, 4, 1, 0, 0, 0, 0, 0, 0⟩,
    ⟨Reg.advper, 4, 1, 0, 0, 0, 0, 0, 0⟩,
    ⟨Reg.advchord, 4, 1, 0, 0, 0, 0, 0, 0⟩,
    ⟨Reg.moves, 4, 1, 0, 0, 0, 0, 0, 0⟩ ]

/-- FUSE: Table 18.8. -/
def regRowsFUSE : List RegRow :=
  [ ⟨Reg.fcmd, 4, 1, 0, 0, 0, 0, 0, 0⟩,
    ⟨Reg.fstat, 4, 1, 0, 0, 0, 0xE, 0, 0⟩,
    ⟨Reg.faddr, 4, 1, 0x7F, 0, 0, 0, 0, 0⟩,
    ⟨Reg.fdata, 4, 1, 0xFFFFFFFF, 0, 0, 0, 0, 0⟩,
    ⟨Reg.fread, 4, 1, 0, 0, 0, 0, 0, 0⟩,
    ⟨Reg.flock, 4, 1, 0, 0, 0, 0, 0, 0⟩,
    ⟨Reg.fshw 0, 4, 128, 0, 0, 0, 0, 0, 0⟩ ]

/-- UPD: Table 18.6. -/
def regRowsUPD : List RegRow :=
  [ ⟨Reg.updcmd, 4, 1, 0, 0, 0, 0, 0, 0⟩,
    ⟨Reg.updstat, 4, 1, 0, 0, 0, 0x8080, 0, 0⟩,
    ⟨Reg.updguard, 4, 1, 0x3FFF0003, 0, 0, 0, 0, 0⟩,
    ⟨Reg.socmean, 4, 1, 0x3FFF, 0, 0, 0, 0, 0⟩,
    ⟨Reg.updplim, 4, 1, 0xFFFFFFFF, 0, 0, 0, 0, 0⟩,
    ⟨Reg.trialcfg, 4, 1, 0, 0xFFFF, Reg.updlock, 0, 0, 0x12C⟩,
    ⟨Reg.updtime, 4, 1, 0, 0xFF, Reg.updlock, 0, 0, 0x14⟩,
    ⟨Reg.sfvcur, 4, 1, 0xFFFF, 0, 0, 0, 0, 0⟩,
    ⟨Reg.upddata, 4, 1, 0, 0, 0, 0, 0, 0⟩,
    ⟨Reg.updptr, 4, 1, 0, 0, 0, 0, 0, 0⟩,
    ⟨Reg.updiver, 4, 1, 0, 0, 0, 0, 0, 0⟩,
    ⟨Reg.bootinf, 4, 1, 0, 0, 0, 0, 0, 0⟩,
    ⟨Reg.updlock, 4, 1, 0, 0, 0, 0, 0, 0⟩ ]

/-- GPIO: Table 14.8. -/
def regRowsGPIO : List RegRow :=
  [ ⟨Reg.gpdir, 4, 1, 0xFF, 0, 0, 0, 0, 0⟩,
    ⟨Reg.gpout, 4, 1, 0xFF, 0, 0, 0, 0, 0⟩,
    ⟨Reg.gpod, 4, 1, 0xFF, 0, 0, 0, 0, 0⟩,
    ⟨Reg.gpin, 4, 1, 0, 0, 0, 0, 0, 0⟩,
    ⟨Reg.gpeven, 4, 1, 0xFFFF, 0, 0, 0, 0, 0⟩,
    ⟨Reg.gpevst, 4, 1, 0, 0, 0, 0xFF, 0, 0⟩,
    ⟨Reg.inunst, 4, 1, 0, 0, 0, 0, 0, 0⟩,
    ⟨Reg.incfg 0, 4, 32, 0xFF7FFFFF, 0, 0, 0, 0, 0x10A0A⟩,
    ⟨Reg.instat 0, 4, 32, 0, 0, 0, 0, 0, 0⟩ ]

/-- The register tables by the block of Table 1.12 that holds an address. -/
def regRowsAt (a : Nat) : List RegRow :=
  if a < 0x40000000 then []
  else if a < 0x40001000 then regRowsSYS
  else if a < 0x40002000 then regRowsTGRID
  else if a < 0x40004000 then regRowsHUB
  else if a < 0x40005000 then regRowsLOOP
  else if a < 0x40006000 then regRowsALLOC
  else if a < 0x40007000 then regRowsEST
  else if a < 0x40008000 then regRowsGATE
  else if a < 0x40009000 then regRowsTHERM
  else if a < 0x4000A000 then regRowsSEQ
  else if a < 0x4000B000 then regRowsSTRAND
  else if a < 0x4000C000 then regRowsPMON
  else if a < 0x4000D000 then regRowsMEM
  else if a < 0x4000E000 then regRowsREC
  else if a < 0x4000F000 then regRowsADC
  else if a < 0x40010000 then regRowsTWB0
  else if a < 0x40011000 then regRowsTWB1
  else if a < 0x40012000 then regRowsSPL
  else if a < 0x40013000 then regRowsCRC
  else if a < 0x40014000 then regRowsAGE
  else if a < 0x40015000 then regRowsFUSE
  else if a < 0x40016000 then regRowsUPD
  else if a < 0x40017000 then regRowsGPIO
  else []

/-- Whether `a` is one of the registers of a row. -/
def RegRow.has (r : RegRow) (a : Nat) : Bool :=
  r.base ≤ a && a < r.base + r.stride * r.count && (a - r.base) % r.stride == 0

/-- The row of a register, none at a reserved or unlisted offset (R565). -/
def regRow (a : Nat) : Option RegRow := (regRowsAt a).find? (·.has a)

/-- Events whose reset route is recorder and in-band request, code I of Table 14.2. -/
def routeI : List Nat := [0, 15, 44, 45, 88, 93, 108, 111, 117, 121, 123]

/-- Spans of events whose reset route is recorder and SMBALERT#, code A of Table 14.2. -/
def routeA : List (Nat × Nat) :=
  [(1, 5), (8, 8), (10, 10), (12, 14), (16, 34), (37, 38), (40, 41), (46, 46), (48, 58), (61, 61), (63, 83), (87, 87),
   (90, 92), (94, 97), (99, 99), (103, 107), (109, 109), (112, 113), (115, 115), (118, 118), (120, 120), (122, 122),
   (125, 125)]

/-- The reset value of ROUTEe: REC always, ALERT or IBR by the code of Table 14.2, strand 0 with WAKE = 0 (R442, R452). -/
def routeReset (e : Nat) : Word :=
  if routeI.contains e then 0x600
  else if routeA.any (fun r => r.1 ≤ e && e ≤ r.2) then 0x500
  else 0x400

/-- The reset value of a register (a reserved offset reads 0). -/
def regReset (a : Nat) : Word :=
  match regRow a with
  | some r => if r.base = Reg.route 0 then routeReset ((a - r.base) / 4) else r.reset
  | none => 0

end Sys2Proof.Machine
end

