-- ==== Sys2Proof/Machine/Ops.lean ====
section
/-! DEFINITION. The named operations on the part's state that every meaning is written with: bit fields, sparse
tables in canonical form, the register file, the memories, power domains, free values and the raising of events. -/

namespace Sys2Proof.Machine

/-! Bit fields of a word. -/

/-- The unsigned field of `len` bits at bit `lo`. -/
def fld (w : Word) (lo len : Nat) : Nat := w.toNat / 2 ^ lo % 2 ^ len

/-- The value of `n`'s low `len` bits read as a signed number. -/
def signed (len n : Nat) : Int :=
  if n % 2 ^ len < 2 ^ (len - 1) then (n % 2 ^ len : Nat) else ((n % 2 ^ len : Nat) : Int) - 2 ^ len

/-- The signed field of `len` bits at bit `lo`. -/
def sfld (w : Word) (lo len : Nat) : Int := signed len (fld w lo len)

/-- The word whose fields are the given values, each at its first bit. -/
def pack (fs : List (Nat × Nat)) : Word := BitVec.ofNat 32 (fs.foldl (fun n f => n + f.2 * 2 ^ f.1) 0)

/-- A number as a word, modulo 2^32. -/
def word (n : Nat) : Word := BitVec.ofNat 32 n

/-- A signed number as a word in two's complement, modulo 2^32. -/
def wordI (i : Int) : Word := BitVec.ofInt 32 i

/-- A signed number's low `len` bits as an unsigned field. -/
def bitsI (len : Nat) (i : Int) : Nat := (i % (2 ^ len : Nat)).toNat

/-- 1 for true, 0 for false. -/
def b2n (b : Bool) : Nat := if b then 1 else 0

/-- `w` with the field of `len` bits at `lo` replaced. -/
def put (w : Word) (lo len v : Nat) : Word :=
  BitVec.ofNat 32 (w.toNat - fld w lo len * 2 ^ lo + v % 2 ^ len * 2 ^ lo)

/-- Clamp an integer between two bounds; where they cross, the upper bound holds. -/
def clampI (lo hi x : Int) : Int := Min.min hi (Max.max lo x)

/-- Clamp a natural between two bounds. -/
def clampN (lo hi x : Nat) : Nat := Nat.min hi (Nat.max lo x)

/-- A count that saturates at `top`. -/
def satAdd (top n k : Nat) : Nat := Nat.min top (n + k)

/-- 0 read as 1. -/
def orOne (n : Nat) : Nat := if n = 0 then 1 else n

/-- Bit `k` of a 32-bit word made of one flag per index. -/
def maskWord (f : Nat → Bool) : Word := pack ((List.range 32).map fun j => (j, b2n (f j)))

/-- Division rounding half away from zero, on integers (`d` positive). -/
def divHalfAway (n d : Int) : Int :=
  if n < 0 then -((2 * (-n) + d) / (2 * d)) else (2 * n + d) / (2 * d)

/-! Sparse tables: keys strictly rising. -/

/-- The value at a key. -/
def tget {α : Type} : List (Nat × α) → Nat → Option α
  | [], _ => none
  | (k, v) :: t, a => if a = k then some v else if a < k then none else tget t a

/-- Put a value at a key. -/
def tset {α : Type} : List (Nat × α) → Nat → α → List (Nat × α)
  | [], a, x => [(a, x)]
  | (k, v) :: t, a, x =>
    if a = k then (a, x) :: t else if a < k then (a, x) :: (k, v) :: t else (k, v) :: tset t a x

/-- Remove a key. -/
def tdel {α : Type} : List (Nat × α) → Nat → List (Nat × α)
  | [], _ => []
  | (k, v) :: t, a => if a = k then t else if a < k then (k, v) :: t else (k, v) :: tdel t a

/-- Put a value at a key, or remove the key where the value is what an unlisted key reads as. -/
def tput {α : Type} [DecidableEq α] (dflt : Nat → α) (l : List (Nat × α)) (a : Nat) (x : α) : List (Nat × α) :=
  if x = dflt a then tdel l a else tset l a x

/-- The keys of a table rise strictly, from `lo` on, and no entry holds what its key reads as unlisted. -/
def twf {α : Type} [DecidableEq α] (dflt : Nat → α) : Nat → List (Nat × α) → Bool
  | _, [] => true
  | lo, (k, v) :: t => decide (lo ≤ k) && decide (v ≠ dflt k) && twf dflt (k + 1) t

/-! The register file. -/

/-- The stored bits of the register at address `a`. -/
def Chip.reg (c : Chip) (a : Nat) : Word := (tget c.regs a).getD (regReset a)

/-- Set every stored bit of the register at address `a`. -/
def Chip.setReg (c : Chip) (a : Nat) (v : Word) : Chip := { c with regs := tput regReset c.regs a v }

/-- A field of a register. -/
def Chip.rf (c : Chip) (a lo len : Nat) : Nat := fld (c.reg a) lo len

/-- A signed field of a register. -/
def Chip.rsf (c : Chip) (a lo len : Nat) : Int := sfld (c.reg a) lo len

/-- A bit of a register. -/
def Chip.bit (c : Chip) (a i : Nat) : Bool := (c.reg a).getLsbD i

/-- Set a field of a register. -/
def Chip.putFld (c : Chip) (a lo len v : Nat) : Chip := c.setReg a (put (c.reg a) lo len v)

/-- Set one bit of a register, as hardware sets a status flag. -/
def Chip.setBit (c : Chip) (a i : Nat) : Chip := c.putFld a i 1 1

/-- Clear one bit of a register. -/
def Chip.clrBit (c : Chip) (a i : Nat) : Chip := c.putFld a i 1 0

/-- Count `k` occurrences in a field that saturates. -/
def Chip.count (c : Chip) (a lo len k : Nat) : Chip := c.putFld a lo len (satAdd (2 ^ len - 1) (c.rf a lo len) k)

/-- What a plain write of `v` leaves in a register: RW bits take `v`, LK bits do unless locked, W1C bits written 1
clear, and all others stay (R8). -/
def RegRow.written (r : RegRow) (locked : Bool) (old v : Word) : Word :=
  let take := if locked then r.rw else r.rw ||| r.lk
  ((old &&& ~~~take) ||| (v &&& take)) &&& ~~~(r.w1c &&& v)

/-- The stored effect of a write at an address by the masks of its row; none at a reserved offset (R565). -/
def Chip.plainWrite (c : Chip) (a : Nat) (v : Word) : Chip :=
  match regRow a with
  | none => c
  | some r => c.setReg a (r.written (r.lockAt ≠ 0 && c.bit r.lockAt 0) (c.reg a) v)

/-- Forget every register in an address span: each returns to its reset value (R49). -/
def Chip.clearRegs (c : Chip) (lo hi : Nat) : Chip :=
  { c with regs := c.regs.filter fun p => !(lo ≤ p.1 && p.1 < hi) }

/-! Memories: one byte table for flash, record store, data SRAM and both loop RAMs. -/

/-- What a byte that no entry lists reads as: erased in flash and record store, 0 elsewhere (log 5). -/
def memInit (a : Nat) : Byte := if a < 0x140000 then 0xFF else 0

/-- The stored byte at an address. -/
def Chip.byte (c : Chip) (a : Nat) : Byte := (tget c.mem a).getD (memInit a)

/-- Store one byte, data only. -/
def Chip.setByte (c : Chip) (a : Nat) (b : Byte) : Chip := { c with mem := tput memInit c.mem a b }

/-- The memory's canonical form: addresses rising, no entry equal to what its address reads as unlisted. -/
def Memory.wf (m : List Host.Cell) : Bool := twf memInit 0 m

/-- `n` bytes from an address, as a little-endian number (R11). -/
def Chip.bytesNat (c : Chip) (a : Nat) : Nat → Nat
  | 0 => 0
  | n + 1 => (c.byte a).toNat + 256 * c.bytesNat (a + 1) n

/-- A little-endian word. -/
def Chip.mword (c : Chip) (a : Nat) : Word := word (c.bytesNat a 4)

/-- Store the low `n` bytes of a number, little-endian. -/
def Chip.setBytesNat (c : Chip) (a v : Nat) : Nat → Chip
  | 0 => c
  | n + 1 => (c.setByte a (BitVec.ofNat 8 v)).setBytesNat (a + 1) (v / 256) n

/-- `n` bytes from an address, first first. -/
def Chip.byteList (c : Chip) (a n : Nat) : List Byte := (List.range n).map fun i => c.byte (a + i)

/-- The little-endian number that bytes spell. -/
def bytesVal : List Byte → Nat
  | [] => 0
  | b :: t => b.toNat + 256 * bytesVal t

/-- The little-endian bytes of a number. -/
def natBytes : Nat → Nat → List Byte
  | 0, _ => []
  | n + 1, v => BitVec.ofNat 8 v :: natBytes n (v / 256)

/-- Set the contents of an address span back to what unlisted addresses read as. -/
def Chip.blank (c : Chip) (lo hi : Nat) : Chip :=
  { c with mem := c.mem.filter (fun p => !(lo ≤ p.1 && p.1 < hi)),
           badPar := c.badPar.filter (fun a => !(lo ≤ a && a < hi)),
           ecc := c.ecc.filter (fun p => !(lo ≤ p.1 && p.1 < hi)) }

/-- The base of a tile's loop RAM (Table 1.12). -/
def loopRam (t : Nat) : Nat := if t = 0 then 0x21000000 else 0x21010000

/-! Power domains (Table 1.8). -/

/-- The flag of one domain. -/
def DomainFlags.get (f : DomainFlags) : Domain → Bool
  | .aon => f.aon | .tgrid => f.tgrid | .sup => f.sup | .tile0 => f.tile0 | .tile1 => f.tile1
  | .hub => f.hub | .afe => f.afe | .nvm => f.nvm | .seq => f.seq | .ifc => f.ifc

/-- Set the flag of one domain. -/
def DomainFlags.set (f : DomainFlags) (d : Domain) (b : Bool) : DomainFlags :=
  match d with
  | .aon => { f with aon := b } | .tgrid => { f with tgrid := b } | .sup => { f with sup := b }
  | .tile0 => { f with tile0 := b } | .tile1 => { f with tile1 := b } | .hub => { f with hub := b }
  | .afe => { f with afe := b } | .nvm => { f with nvm := b } | .seq => { f with seq := b }
  | .ifc => { f with ifc := b }

/-- A domain is powered and out of reset (R50). -/
def Chip.up (c : Chip) (d : Domain) : Bool := c.pwr.powered.get d && !c.pwr.held.get d

/-- A tile's domain. -/
def tileDom (t : Nat) : Domain := if t = 0 then .tile0 else .tile1

/-- The domain of a block, by its address (Table 1.12). -/
def blockDom (a : Nat) : Domain :=
  if a < 0x40001000 then .sup
  else if a < 0x40002000 then .tgrid
  else if a < 0x40007000 then .hub
  else if a < 0x40008000 then .afe
  else if a < 0x40009000 then .hub
  else if a < 0x4000A000 then .seq
  else if a < 0x4000E000 then .sup
  else if a < 0x4000F000 then .afe
  else if a < 0x40012000 then .ifc
  else if a < 0x40013000 then .sup
  else if a < 0x40014000 then .hub
  else if a < 0x40015000 then .aon
  else if a < 0x40016000 then .sup
  else .ifc

/-! Masters (Table 14.1). -/

/-- The code of a master. -/
def masterCode : Master → Nat
  | .strand n => n.val
  | .tile t => 8 + t.val
  | .hub => 10
  | .window => 11
  | .recorder => 12
  | .update => 13
  | .scrubber => 14

/-- A master acts at user level: a strand whose PRIV is 0 (R414). -/
def Chip.userLevel (c : Chip) : Master → Bool
  | .strand n => !(c.strands.getD n.val {}).priv
  | _ => false

/-! Shadows of 64-bit reads (R30). -/

/-- The order of shadow keys: master code first, then the address of the high half. -/
def shadowKey (m : Master) (hi : Nat) : Nat := masterCode m * 2 ^ 32 + hi

/-- A master's shadow of a high half; 0 where that master never read the low half (R31, log 3). -/
def Chip.shadow (c : Chip) (m : Master) (hi : Nat) : Word := (tget c.shadows (shadowKey m hi)).getD 0

/-- Latch a master's shadow of a high half. -/
def Chip.latch (c : Chip) (m : Master) (hi : Nat) (v : Word) : Chip :=
  { c with shadows := tput (fun _ => 0) c.shadows (shadowKey m hi) v }

/-! Free values (log 4). -/

/-- The next free word. -/
def Chip.free (c : Chip) : Word := Config.freeWord c.freeIx

/-- Use up the next free word. -/
def Chip.useFree (c : Chip) : Chip := { c with freeIx := c.freeIx + 1 }

/-! Raising events and time. -/

/-- Raise an event with its source in the present tick (R33, R436); it is numbered when the command settles. -/
def Chip.raise (c : Chip) (ev : Nat) (src : Nat := 0) : Chip :=
  { c with raised := c.raised ++ [{ ev := ev, src := src, stamp := c.tg.tick }] }

/-- Raise an event if a condition holds. -/
def Chip.raiseIf (c : Chip) (b : Bool) (ev : Nat) (src : Nat := 0) : Chip := if b then c.raise ev src else c

/-- Change one element of a list of a chip's parts. -/
def Chip.tile (c : Chip) (t : Nat) : Tile := c.tiles.getD t {}

/-- Change one tile. -/
def Chip.modTile (c : Chip) (t : Nat) (f : Tile → Tile) : Chip := { c with tiles := c.tiles.modify t f }

/-- One strand. -/
def Chip.strand (c : Chip) (n : Nat) : Strand := c.strands.getD n {}

/-- Change one strand. -/
def Chip.modStrand (c : Chip) (n : Nat) (f : Strand → Strand) : Chip := { c with strands := c.strands.modify n f }

/-- The control period runs: the hub runs its chains and the grid's periods are not stopped (R57, R84; log 7). -/
def Chip.periodRuns (c : Chip) : Bool := c.up .hub && c.hub.running && !c.tg.stopped

end Sys2Proof.Machine
end

