-- ==== Sys2Proof/Machine/Pmon.lean ====
section
/-! DEFINITION. The performance counters (R446 to R450, R456, R457) and the passing of time. -/

namespace Sys2Proof.Machine

/-- What an occurrence carries for the filters of Table 14.4: the master code, its level, and an address or event. -/
structure Occur where
  sel   : Nat
  code  : Option Nat := none
  user  : Option Bool := none
  point : Option Nat := none

/-- Whether counter configuration `cfg` counts an occurrence (Table 14.4, Table 14.11). -/
def Chip.pmonPass (c : Chip) (cfg : Word) (o : Occur) : Bool :=
  fld cfg 0 5 == o.sel && o.sel != 0 &&
  (match o.user with
   | none => true
   | some u => fld cfg 6 2 == 0 || fld cfg 6 2 == (if u then 2 else 1)) &&
  (match o.code with
   | none => true
   | some m => fld cfg 8 13 == 0 || cfg.getLsbD (8 + m)) &&
  (match o.point with
   | none => true
   | some a => !cfg.getLsbD 5 || ((c.reg Reg.pmrlo).toNat ≤ a && a ≤ (c.reg Reg.pmrhi).toNat))

/-- Add to one counter; a carry out of bit 47 wraps, sets OVF and with OVFEV raises event 127 (R448). -/
def Chip.pmonAdd1 (c : Chip) (o : Occur) (k i : Nat) : Chip :=
  if c.pmonPass (c.reg (Reg.cntCfg i)) o then
    let t := c.pmon.getD i 0 + k
    let c := { c with pmon := c.pmon.set i (t % 2 ^ 48) }
    if 2 ^ 48 ≤ t then (c.setBit Reg.pmstat i).raiseIf (c.bit (Reg.cntCfg i) 21) 127 i else c
  else c

/-- Add `k` occurrences to every counter that passes them, while PMCTL.EN = 1 (R446). -/
def Chip.pmonAdd (c : Chip) (o : Occur) (k : Nat := 1) : Chip :=
  if c.up .sup && c.bit Reg.pmctl 0 then (List.range 8).foldl (fun c i => c.pmonAdd1 o k i) c else c

/-- The ticks of PMON.SEL 12. -/
def Chip.pmonTicks (c : Chip) (k : Nat) : Chip := c.pmonAdd { sel := 12 } k

/-- A READY strand that does not hold issue counts starvation (R434). -/
def Chip.starve (c : Chip) (k : Nat) : Chip :=
  { c with strands := c.strands.mapIdx fun i st =>
      if st.run = .ready ∧ c.issue.holder ≠ some (Fin.ofNat 8 i) then { st with starv := st.starv + k } else st }

/-- OPTIME counts whole seconds while the NVM domain is powered (R475). -/
def Recorder.runOptime (r : Recorder) (k : Nat) : Recorder :=
  { r with optime := r.optime + (r.opTicks + k) / 100000000, opTicks := (r.opTicks + k) % 100000000 }

/-- `k` ticks of 10 ns pass: the tick counter (R29), the watchdog (R92), operating time (R475), starvation (R434) and
PMON's tick selection advance. -/
def Chip.elapse (c : Chip) (k : Nat) : Chip :=
  if k = 0 then c else
  let c := c.pmonTicks k
  let c := if c.up .tgrid then { c with tg.tick := c.tg.tick + k } else c
  let c := if c.up .sup then c.starve k else c
  let c := if c.pwr.powered.nvm then { c with recd := c.recd.runOptime k } else c
  { c with now := c.now + k,
           pwr.wdtTicks := if c.pwr.wdtRun then c.pwr.wdtTicks + k else c.pwr.wdtTicks }

/-- Time passes until `now` is at least `t`; never backwards (log 8). -/
def Chip.elapseTo (c : Chip) (t : Nat) : Chip := c.elapse (t - c.now)

/-- Time passes until the tick counter is at least `t`. -/
def Chip.elapseTick (c : Chip) (t : Nat) : Chip := c.elapse (t - c.tg.tick)

/-- A read of a PMON register (R449, R456). -/
def readPmon (c : Chip) (m : Master) (a : Nat) : Word :=
  match (List.range 8).find? fun i => a = Reg.cntLo i || a = Reg.cntHi i with
  | some i => if a = Reg.cntLo i then word (c.pmon.getD i 0) else c.shadow m a
  | none => c.reg a

/-- A write to a PMON register: CLR zeroes every counter (R446). -/
def writePmon (c : Chip) (a : Nat) (v : Word) : Chip :=
  let c := c.plainWrite a v
  if a = Reg.pmctl && v.getLsbD 2 then { c with pmon := List.replicate 8 0 } else c

end Sys2Proof.Machine
end

