-- ==== Sys2Proof/Machine/Fuse.lean ====
section
/-! DEFINITION. Fuses: the array, its shadow, the fused limits and programming (R340, R559, R560, R564). -/

namespace Sys2Proof.Machine

/-- A word of the fuse shadow. -/
def Chip.fuseWord (c : Chip) (w : Nat) : Word := c.fuses.shadow.getD w 0

/-- A complement field of width `w` (R559). -/
def complement (w v : Nat) : Nat := 2 ^ w - 1 - v

/-- FOVP, mV; after a fuse-read difference its most restrictive value (Table 10.6). -/
def Chip.fovp (c : Chip) : Nat := if c.pwr.fuseDiff then 0 else complement 12 (fld (c.fuseWord 4) 0 12) * 1000

/-- FUVP, mV. -/
def Chip.fuvp (c : Chip) : Nat := if c.pwr.fuseDiff then 4095000 else fld (c.fuseWord 4) 12 12 * 1000

/-- FOCP, mA. -/
def Chip.focp (c : Chip) : Nat := if c.pwr.fuseDiff then 0 else complement 12 (fld (c.fuseWord 5) 0 12) * 1000

/-- FVSET, mV. -/
def Chip.fvset (c : Chip) : Nat := if c.pwr.fuseDiff then 0 else complement 12 (fld (c.fuseWord 5) 12 12) * 1000

/-- FMAX, mA. -/
def Chip.fmax (c : Chip) : Nat := if c.pwr.fuseDiff then 0 else complement 12 (fld (c.fuseWord 6) 0 12) * 100

/-- FNSLOT, slots. -/
def Chip.fnslot (c : Chip) : Nat :=
  if c.pwr.fuseDiff then 0 else Nat.min 128 (complement 8 (fld (c.fuseWord 6) 12 8))

/-- The fused store plan: plan D unless PLAN is 0 (Table 18.5). -/
def Chip.planD (c : Chip) : Bool := fld (c.fuseWord 7) 0 2 ≠ 0

/-- The fused key hash, byte 0 first; all zero means that unsigned images are accepted (Table 18.5). -/
def Chip.keyHash (c : Chip) : List Byte := (List.range 8).foldr (fun i l => natBytes 4 (c.fuseWord (8 + i)).toNat ++ l) []

/-- A key hash is fused. -/
def Chip.keyFused (c : Chip) : Bool := c.keyHash.any (· ≠ 0)

/-- The conditions under which FUSE programs (R560). -/
def Chip.fuseProgOk (c : Chip) : Bool :=
  (c.pwr.cur == .standby || c.pwr.cur == .recovery) && c.gate.gst == .open_ && 3000 ≤ c.pwr.vinMv &&
    !c.fuses.locked && 4 ≤ c.rf Reg.faddr 0 7 && c.fuses.busy.isNone

/-- A write to FCMD (R560). -/
def Chip.fuseProg (c : Chip) (v : Word) : Chip :=
  if fld v 16 16 ≠ 0xF05E || !v.getLsbD 0 then c
  else if c.fuseProgOk then
    { c with fuses.busy := some (c.rf Reg.faddr 0 7, c.reg Reg.fdata), fuses.busyAt := c.now }
  else c.setBit Reg.fstat 2

/-- The number of ones of a word. -/
def ones (w : Word) : Nat := (List.range 32).foldl (fun n i => n + b2n (w.getLsbD i)) 0

/-- FUSE_PROGRAM_DONE: each 1 bit of FDATA has been blown at 10 µs per bit, those of `unblown` apart; a fuse goes from
0 to 1 only (R559, R560). -/
def Chip.fuseProgDone (c : Chip) (unblown : Word) : Chip :=
  match c.fuses.busy with
  | none => c
  | some (a, v) =>
    let c := c.elapseTo (c.fuses.busyAt + 1000 * ones v)
    let got := (c.fuses.array.getD a 0) ||| (v &&& ~~~unblown)
    let c := { c with fuses.array := c.fuses.array.set a got, fuses.busy := none }
    if got &&& v = v then c.setBit Reg.fstat 1 else c.setBit Reg.fstat 3

/-- A read of a FUSE register (Table 18.8). -/
def readFuse (c : Chip) (a : Nat) : Word :=
  if a = Reg.fstat then
    c.reg a ||| pack [(0, b2n c.fuses.busy.isSome), (4, b2n c.pwr.fuseDiff), (5, b2n c.fuses.locked)]
  else if a = Reg.fread then c.fuses.array.getD (c.rf Reg.faddr 0 7) 0
  else if a = Reg.flock then pack [(0, b2n c.fuses.locked)]
  else if Reg.fshw 0 ≤ a && a < Reg.fshw 128 then c.fuseWord ((a - Reg.fshw 0) / 4)
  else c.reg a

/-- A write to a FUSE register. -/
def writeFuse (c : Chip) (a : Nat) (v : Word) : Chip :=
  if a = Reg.fcmd then c.fuseProg v
  else if a = Reg.flock then (if v.getLsbD 0 then { c with fuses.locked := true } else c)
  else c.plainWrite a v

end Sys2Proof.Machine
end

