-- ==== Sys2Proof/Machine/Gpio.lean ====
section
/-! DEFINITION. Conditioned inputs and general I/O (R443 to R445, R454, R455). -/

namespace Sys2Proof.Machine

/-- The inputs of Table 14.3; other indices are reserved. -/
def inputUsed (i : Nat) : Bool := i ≤ 2 || (4 ≤ i && i ≤ 11) || (16 ≤ i && i ≤ 31)

/-- One input. -/
def Chip.input (c : Chip) (i : Nat) : Input := c.inputs.getD i {}

/-- Change one input. -/
def Chip.modInput (c : Chip) (i : Nat) (f : Input → Input) : Chip := { c with inputs := c.inputs.modify i f }

/-- An input is unstable (R443). -/
def Input.unstable (x : Input) : Bool := x.tog || x.stk

/-- The level that blocks see: the qualified level, or while unstable the safe meaning of Table 14.3 (R444). -/
def Chip.inLevel (c : Chip) (i : Nat) : Bool :=
  let x := c.input i
  if x.unstable then (if 4 ≤ i && i ≤ 11 then x.frozen else false) else x.level

/-- INCFGi.TMAX. -/
def Chip.tmax (c : Chip) (i : Nat) : Nat := c.rf (Reg.incfg i) 8 8

/-- Ticks of one window, TWIN ms with 0 read as 1 (Table 14.9). -/
def Chip.twin (c : Chip) (i : Nat) : Nat := orOne (c.rf (Reg.incfg i) 16 6) * 100000

/-- A declaration of instability: event 13, counted, and the input takes its safe meaning (R443, R444). -/
def Chip.declare (c : Chip) (i : Nat) (f : Input → Input) : Chip :=
  (c.modInput i fun x =>
    f { x with decl := satAdd 0xFFFF x.decl 1, frozen := if x.unstable then x.frozen else x.level }).raise 13 i

/-- Raw edges are counted in the present window; more than TMAX of them declare the input unstable (R443). -/
def Chip.countEdges (c : Chip) (i n : Nat) : Chip :=
  let c := c.modInput i fun x => { x with edges := x.edges + n }
  if c.tmax i ≠ 0 && c.tmax i < (c.input i).edges && !(c.input i).tog then
    c.declare i fun x => { x with tog := true, quiet := 0 }
  else c

/-- INPUT_QUALIFIED: the raw level has held for FILT ticks, after `edges` raw edges since the last report. A change that
leaves STKLVL ends a stuck declaration (R443, R444). -/
def Chip.qualify (c : Chip) (i : Nat) (level : Bool) (edges : Nat) : Chip :=
  if !inputUsed i || !c.up .ifc then c else
  let c := c.countEdges i edges
  let stuckLvl := c.bit (Reg.incfg i) 22
  c.modInput i fun x =>
    { x with raw := level, level := level,
             stkAt := if x.raw = level then x.stkAt else c.now,
             stk := x.stk && level == stuckLvl }

/-- TOGGLE_WINDOW_END: the window closes after `edges` further raw edges; a toggle declaration clears after 4 windows of
at most TMAX / 2 edges (R443, R444). -/
def Chip.windowEnd (c : Chip) (i edges : Nat) : Chip :=
  if !inputUsed i || !c.up .ifc then c else
  let c := c.elapseTo ((c.input i).winAt + c.twin i)
  let c := c.countEdges i edges
  let calm := (c.input i).edges ≤ c.tmax i / 2
  c.modInput i fun x =>
    let q := if x.tog && calm then x.quiet + 1 else 0
    { x with winAt := c.now, edges := 0, quiet := if q = 4 then 0 else q, tog := x.tog && q ≠ 4 }

/-- STUCK_EXPIRY: the raw level has stayed at STKLVL for STUCK × 100 ms (R443). -/
def Chip.stuckExpiry (c : Chip) (i : Nat) : Chip :=
  let n := c.rf (Reg.incfg i) 24 8
  let x := c.input i
  if !inputUsed i || !c.up .ifc || n = 0 || x.raw ≠ c.bit (Reg.incfg i) 22 || x.stk then c
  else (c.elapseTo (x.stkAt + n * 10000000)).declare i fun x => { x with stk := true }

/-- A write to INCFGi restarts the input's window and filter (R443, R455). -/
def Chip.writeIncfg (c : Chip) (i : Nat) (v : Word) : Chip :=
  (c.plainWrite (Reg.incfg i) v).modInput i fun x => { x with winAt := c.now, edges := 0, quiet := 0 }

/-- A qualified edge of GPIO pin `k`: GPEVST, and event 110 where enabled (R445). -/
def Chip.gpioEdge (c : Chip) (k : Nat) (rise : Bool) : Chip :=
  (c.setBit Reg.gpevst k).raiseIf (c.bit Reg.gpeven (if rise then k else 8 + k)) 110 k

/-- The raw level of GPIO pin `k`: what it drives, or what the board holds it at (R445). -/
def Chip.gpioRaw (c : Chip) (k : Nat) : Bool :=
  if c.bit Reg.gpdir k && (!c.bit Reg.gpod k || !c.bit Reg.gpout k) then c.bit Reg.gpout k else (c.input (4 + k)).raw

/-- A read of a GPIO register (Table 14.8). -/
def readGpio (c : Chip) (a : Nat) : Word :=
  if a = Reg.gpin then
    pack ((List.range 8).map fun k => (k, b2n (c.inLevel (4 + k)))) |||
      pack ((List.range 8).map fun k => (8 + k, b2n (c.gpioRaw k)))
  else if a = Reg.inunst then maskWord fun i => (c.input i).unstable
  else if Reg.instat 0 ≤ a && a < Reg.instat 32 then
    let x := c.input ((a - Reg.instat 0) / 4)
    pack [(0, b2n x.unstable), (1, b2n x.stk), (2, b2n x.tog), (8, Nat.min 0xFF x.edges), (16, x.decl)]
  else c.reg a

/-- A write to a GPIO register. -/
def writeGpio (c : Chip) (a : Nat) (v : Word) : Chip :=
  if Reg.incfg 0 ≤ a && a < Reg.incfg 32 then c.writeIncfg ((a - Reg.incfg 0) / 4) v
  else if Reg.instat 0 ≤ a && a < Reg.instat 32 then
    (if v.getLsbD 16 then c.modInput ((a - Reg.instat 0) / 4) fun x => { x with decl := 0 } else c)
  else c.plainWrite a v

end Sys2Proof.Machine
end

