-- ==== Sys2Proof/Machine/Shelf.lean ====
section
/-! DEFINITION. The shelf state: requests, their priority and entry (R57, R98 to R100; log 33). -/

namespace Sys2Proof.Machine

/-- The code of a shelf state (Table 3.7). -/
def ShelfState.code : ShelfState → Nat
  | .off => 0 | .ship => 1 | .standby => 2 | .precharge => 3 | .connected => 4 | .regulating => 5 | .holdover => 6
  | .faultLatched => 7 | .recovery => 8

/-- R99's order among destinations. -/
def ShelfState.rank : ShelfState → Nat
  | .off => 4 | .recovery => 3 | .faultLatched => 2 | .standby => 1 | _ => 0

/-- The shelf enters a state: events 41 and 42 of Table 3.5, and the latch with FLTEVT on entry to FAULT-LATCHED (R98,
R100). -/
def Chip.shelfEnter (c : Chip) (dst : ShelfState) (evt : Nat := 0) : Chip :=
  let p := c.pwr
  if p.cur = dst then { c with shelfReq := none } else
  let c1 := { c with
    shelfReq := none
    pwr.prev := p.cur
    pwr.cur := dst
    pwr.latch := p.latch || dst == ShelfState.faultLatched
    pwr.fltEvt := if dst == ShelfState.faultLatched && !p.latch then evt else p.fltEvt }
  let c1 := c1.raiseIf (dst == ShelfState.holdover) 41
  c1.raiseIf (p.cur == ShelfState.holdover && dst == ShelfState.regulating) 42

/-- A transition is asked for: at the next vertex while the control period runs, else at once (R57, R98, R99). -/
def Chip.shelfAsk (c : Chip) (dst : ShelfState) (evt : Nat := 0) : Chip :=
  if !c.periodRuns then c.shelfEnter dst evt
  else
    match c.shelfReq with
    | some r => if r.dst.rank < dst.rank || (dst.rank = 0 && r.dst.rank = 0) then { c with shelfReq := some ⟨dst, evt⟩ } else c
    | none => { c with shelfReq := some ⟨dst, evt⟩ }

/-- A latching fault is recognised: the shelf latches in any powered state but SHIP, RECOVERY and FAULT-LATCHED itself,
and a snapshot is latched in this tick (R98, R100, R485). -/
def Chip.shelfFault (c : Chip) (evt : Nat) : Chip :=
  match c.pwr.cur with
  | .off | .ship | .recovery | .faultLatched => c
  | _ =>
    if c.shelfReq.any (·.dst == .faultLatched) then c
    else { c with snapReq := some evt }.shelfAsk .faultLatched evt

/-- A waiting transition takes effect at the vertex (R57). -/
def Chip.shelfDue (c : Chip) : Chip :=
  match c.shelfReq with
  | some r => c.shelfEnter r.dst r.fltEvt
  | none => c

/-- The shelf is in a state where the rack is connected or being connected. -/
def Chip.shelfUp (c : Chip) : Bool :=
  match c.pwr.cur with
  | .precharge | .connected | .regulating | .holdover => true
  | _ => false

end Sys2Proof.Machine
end

