-- ==== Sys2Proof/Machine/Gate.lean ====
section
/-! DEFINITION. The bus gate: states and outputs, connecting and disconnecting, protection, the fuse curve, comparators,
metering, and the GATE registers (R326 to R351; log 32). -/

namespace Sys2Proof.Machine

/-! Outputs and tracking (R329, Table 10.2). -/

/-- The contactor drive of the present state. -/
def Gate.conOut (g : Gate) : Bool :=
  match g.gst with
  | .close | .closed => true
  | .opening | .tripped => g.conHigh
  | _ => false

/-- GCFG.ONECON. -/
def Chip.onecon (c : Chip) : Bool := c.bit Reg.gcfg 3

/-- A contactor's level as its pin reads. -/
def Chip.confb (c : Chip) (i : Nat) : Bool := c.pins.confb.getD i false

/-- CON_ENi differs from CONFBi, CONFB1 being ignored with ONECON (Table 10.4). -/
def Chip.conDiffers (c : Chip) (i : Nat) : Bool := !(i = 1 && c.onecon) && c.confb i != c.gate.conOut

/-- Since when each contactor has differed from its drive. -/
def Chip.conTrack (c : Chip) : Chip :=
  { c with gate.conBad := c.gate.conBad.mapIdx fun i s => if c.conDiffers i then some (s.getD c.tg.tick) else none }

/-- Both contacts read open, as far as they are looked at. -/
def Chip.confbOpen (c : Chip) : Bool := !c.confb 0 && (c.onecon || !c.confb 1)

/-- Both contacts read closed, as far as they are looked at. -/
def Chip.confbClosed (c : Chip) : Bool := c.confb 0 && (c.onecon || c.confb 1)

/-- A new gate state: times count from here; the contactor drive is kept into OPENING and TRIPPED (R331, R332). -/
def Chip.gateGo (c : Chip) (st : Gst) : Chip :=
  let drive := c.gate.conOut
  { c with gate := { c.gate with gst := st, since := c.tg.tick, conHigh := drive, ioff := false, agree := 0, revN := 0,
                                 pretDone := false } }.conTrack

/-! Protection (R334 to R336, Table 10.4). -/

/-- A comparator with ACT = 1 is qualified outside its window. -/
def Chip.cmpTrips (c : Chip) : Bool :=
  (List.range 8).any fun n => c.bit (Reg.cmpCfg n) 2 && c.gate.cmpOut.getD n false

/-- EXT_TRIP# is qualified low and counts. -/
def Chip.extTrips (c : Chip) : Bool := c.bit Reg.gcfg 2 && !c.inLevel 0

/-- VSW × 256 ≥ VRACK × LEAKFR with VRACK at least 50 V. -/
def Chip.leaks (c : Chip) : Bool :=
  (50000 : Int) ≤ c.gate.vrack && c.gate.vrack * c.rf Reg.leakcfg 16 8 ≤ c.gate.vsw * 256

/-- H has reached the fuse limit (R339). -/
def Chip.fuseBlown (c : Chip) : Bool := (c.reg Reg.i2tlim).toNat * 100000000 ≤ c.gate.heat

/-- |ISH|. -/
def Gate.ishAbs (g : Gate) : Nat := g.ish.natAbs

/-- The reverse-current count has been reached. -/
def Chip.reversed (c : Chip) : Bool := orOne (c.rf Reg.revcfg 16 8) ≤ c.gate.revN

/-- The states in which a cause is tested (Table 10.4): bits CMP to SENSE are 0 to 12. -/
def causeTested (g : Gst) : Nat → Bool
  | 2 => (g matches .prechg | .ramp | .close | .closed | .opening | .tripped)
  | 3 | 6 => g == .closed
  | 7 => g == .prechg
  | 8 => g == .ramp
  | 9 => (g matches .open_ | .check | .prechg)
  | 10 => true
  | 11 => (g matches .ramp | .close | .closed)
  | 12 => !(g matches .open_)
  | _ => !(g matches .open_ | .check)

/-- The event of a cause (Table 10.4). -/
def causeEvent : Nat → Nat
  | 0 => 52 | 1 => 12 | 2 => 48 | 3 => 49 | 4 => 51 | 5 => 51 | 6 => 58 | 7 => 54 | 8 => 55 | 9 => 56 | 10 => 57
  | 11 => 55 | _ => 51

/-- The comparators with ACT = 1 that are qualified outside set TRIPD where the cause CMP is recognised (R342). -/
def Chip.markTripped (c : Chip) : Chip :=
  (List.range 8).foldl (fun c n =>
    if c.bit (Reg.cmpCfg n) 2 && c.gate.cmpOut.getD n false then c.setBit Reg.cmpstat (8 + n) else c) c

/-- Causes are recognised: those tested in this state and not yet set (R333, R334). -/
def Chip.gateTrip (c : Chip) (causes : List Nat) : Chip :=
  let g := c.gate
  let new := causes.filter fun i => causeTested g.gst i && !g.cause.getLsbD i
  if new.isEmpty then c else
  let new := if g.gst = .ramp && !new.contains 8 && !g.cause.getLsbD 8 then new ++ [8] else new
  let mask := new.foldl (fun m i => m ||| (1#13 <<< i)) 0
  let evts := new.map causeEvent
  let c := { c with gate.cause := g.cause ||| mask, gate.tripTick := if g.cause = 0 then c.tg.tick else g.tripTick }
  let c := evts.foldl (fun c e => c.raise e) c
  let c := if new.contains 0 then c.markTripped else c
  let c := match g.gst with
    | .open_ => c
    | .check => c.gateGo .open_
    | .tripped => c
    | _ => c.gateGo .tripped
  c.shelfFault (evts.foldl Nat.min 255)

/-- The conditions that stand, as far as they are levels. -/
def Chip.gateLevels (c : Chip) : List Nat :=
  let g := c.gate
  [(0, c.cmpTrips), (1, c.extTrips), (2, decide ((c.reg Reg.ovlim).toNat ≤ g.vbus)),
   (3, c.bit Reg.gcfg 0 && decide (g.vbus ≤ (c.reg Reg.uvlim).toNat)), (4, decide ((c.reg Reg.oclim).toNat ≤ g.ishAbs)),
   (5, c.fuseBlown), (6, c.bit Reg.gcfg 1 && c.reversed), (9, c.leaks),
   (11, c.pins.gateFltLow)].filterMap fun p => if p.2 then some p.1 else none

/-- Test every standing condition (R334). -/
def Chip.gateTest (c : Chip) : Chip := c.gateTrip c.gateLevels

/-! Transitions (R330 to R333). -/

/-- |a − b| ≤ PREDV. -/
def Chip.agrees (c : Chip) (a b : Int) : Bool := (a - b).natAbs ≤ (c.reg Reg.predv).toNat

/-- The gate has opened: the shelf is STANDBY unless it is latched (Table 10.3). -/
def Chip.gateOpened (c : Chip) : Chip :=
  let c := c.gateGo .open_
  if c.shelfUp && !c.shelfReq.any (·.dst == .faultLatched) then c.shelfAsk .standby else c

/-- OPENING and TRIPPED end once the contactors are released, both read open and the current has been seen off. -/
def Chip.openingDone (c : Chip) : Chip :=
  let g := c.gate
  if (g.gst matches .opening | .tripped) && !g.conHigh && g.ioff && c.confbOpen then c.gateOpened else c

/-- RAMP to CLOSE, once RAMPT has elapsed and the switch node agrees. -/
def Chip.rampDone (c : Chip) : Chip :=
  let g := c.gate
  if g.gst = .ramp && g.since + c.rf Reg.rampcfg 0 16 * 100 ≤ c.tg.tick && c.agrees g.vrack g.vsw then
    (c.gateGo .close).gateTest
  else c

/-- CLOSE to CLOSED, once both contacts read closed. -/
def Chip.closeDone (c : Chip) : Chip :=
  if c.gate.gst = .close && c.confbClosed then ((c.gateGo .closed).shelfAsk .connected).gateTest else c

/-- AIN0 to AIN3 each have a result in the last 10 000 ticks. -/
def Chip.sensed (c : Chip) : Bool := c.gate.last.all fun t => t.any fun t => c.tg.tick < t + 10000

/-- The reasons to refuse a CONNECT, as bits of GSTAT (R330). -/
def Chip.connectRefusal (c : Chip) : List Nat :=
  let v := c.gate.vrack
  [(5, !(c.pwr.cur == .standby && c.gate.gst == .open_)), (6, c.gate.cause ≠ 0 || c.pwr.latch), (7, c.pwr.fuseDiff),
   (8, c.pins.gateFltLow), (9, !c.confbOpen), (10, !c.sensed || !c.adc.settled),
   (11, v < (c.reg Reg.uvlim).toNat || (c.reg Reg.ovlim).toNat < v)].filterMap fun p => if p.2 then some p.1 else none

/-- CONNECT (R330). -/
def Chip.gateConnect (c : Chip) : Chip :=
  let bad := c.connectRefusal
  if bad.isEmpty then (c.gateGo .check).gateTest
  else bad.foldl (fun c i => c.setBit Reg.gstat i) (c.setBit Reg.gstat 4)

/-- DISCONNECT (Table 10.3). -/
def Chip.gateDisconnect (c : Chip) : Chip :=
  match c.gate.gst with
  | .check => c.gateGo .open_
  | .prechg | .ramp | .close | .closed => (c.gateGo .opening).gateTest
  | _ => c

/-- A write to GCMD (R330). -/
def Chip.writeGcmd (c : Chip) (v : Word) : Chip :=
  if fld v 16 16 ≠ 0x6A7E then c
  else if v.getLsbD 1 then c.gateDisconnect
  else if v.getLsbD 0 then c.gateConnect else c

/-- LEAKT_ELAPSED (Table 10.3). -/
def Chip.leaktElapsed (c : Chip) : Chip :=
  if !(c.up .afe && c.gate.gst == .check) then c else
  let c := c.elapseTick (c.gate.since + c.rf Reg.leakcfg 0 16 * 100)
  ((c.gateGo .prechg).shelfAsk .precharge).gateTest

/-- The pre-charge short test (R333, R334). -/
def Chip.shortTest (c : Chip) : Chip :=
  let c := { c with gate.pretDone := true }
  if (c.reg Reg.preshi).toNat ≤ c.gate.ishAbs then c.gateTrip [7] else c

/-- PRET_ELAPSED: at PRET, or at PRETMO if that is earlier (R334). -/
def Chip.pretElapsed (c : Chip) : Chip :=
  if !(c.up .afe && c.gate.gst == .prechg && !c.gate.pretDone) then c else
  let n := Nat.min (c.rf Reg.precfg 0 16) (c.rf Reg.precfg 16 16)
  (c.elapseTick (c.gate.since + n * 100000)).shortTest

/-- PRETMO_ELAPSED: the short test that falls on it comes first (R331, R333). -/
def Chip.pretmoElapsed (c : Chip) : Chip :=
  if !(c.up .afe && c.gate.gst == .prechg) then c else
  let c := if c.gate.pretDone then c else c.pretElapsed
  if c.gate.gst ≠ .prechg then c else
  let c := c.elapseTick (c.gate.since + c.rf Reg.precfg 16 16 * 100000)
  ((c.setBit Reg.gstat 12).raise 53).gateOpened

/-- RAMPT_ELAPSED (Table 10.3). -/
def Chip.ramptElapsed (c : Chip) : Chip :=
  if !(c.up .afe && c.gate.gst == .ramp) then c
  else (c.elapseTick (c.gate.since + c.rf Reg.rampcfg 0 16 * 100)).rampDone

/-- RAMPTMO_ELAPSED (Table 10.4). -/
def Chip.ramptmoElapsed (c : Chip) : Chip :=
  if !(c.up .afe && c.gate.gst == .ramp) then c else
  let c := (c.elapseTick (c.gate.since + c.rf Reg.rampcfg 16 16 * 100)).rampDone
  if c.gate.gst == .ramp then c.gateTrip [8] else c

/-- CONFB_CHANGE (Tables 10.3 and 10.4). -/
def Chip.confbChange (c : Chip) (i : Nat) (closed : Bool) : Chip :=
  let c := { c with pins.confb := c.pins.confb.set i closed }
  if !c.up .afe then c else c.conTrack.closeDone.openingDone

/-- CONDLY_ELAPSED (R332). -/
def Chip.condlyElapsed (c : Chip) : Chip :=
  if !(c.up .afe && (c.gate.gst matches .opening | .tripped) && c.gate.conHigh) then c else
  let c := c.elapseTick (c.gate.since + c.rf Reg.concfg 16 16 * 100000)
  ({ c with gate.conHigh := false }.setBit Reg.gstat 14).conTrack.openingDone

/-- CONT_ELAPSED for one contactor (Table 10.4). -/
def Chip.contElapsed (c : Chip) (i : Nat) : Chip :=
  match c.up .afe, c.gate.conBad.getD i none with
  | true, some t => (c.elapseTick (t + c.rf Reg.concfg 0 16 * 100000)).gateTrip [10]
  | _, _ => c

/-- SENSE_TIMEOUT (Table 10.4). -/
def Chip.senseTimeout (c : Chip) : Chip :=
  if !c.up .afe || c.gate.gst == .open_ then c else
  let first := (c.gate.last.map fun t => t.getD 0).foldl Nat.min ((c.gate.last.getD 0 none).getD 0)
  (c.elapseTick (first + 10000)).gateTrip [12]

/-- GATE_FLT (Table 10.4). -/
def Chip.gateFlt (c : Chip) (low : Bool) : Chip :=
  let c := { c with pins.gateFltLow := low }
  if c.up .afe then c.gateTest else c

/-- What EXT_TRIP# qualified low does: event 12 alone with EXTACT = 0, else the cause EXT (R334, R335, Table 10.10). -/
def Chip.extLow (c : Chip) : Chip :=
  if !c.up .afe then c else if c.bit Reg.gcfg 2 then c.gateTest else c.raise 12

/-! Comparators (R342, R343). -/

/-- COMPARATOR_QUALIFIED (R342). -/
def Chip.cmpQualified (c : Chip) (n : Nat) (outside : Bool) : Chip :=
  let out := outside && c.rf (Reg.cmpCfg n) 0 2 ≠ 0
  if !c.up .afe then c else
  let c := { c with gate.cmpOut := c.gate.cmpOut.set n out }
  if !out then c
  else if c.bit (Reg.cmpCfg n) 2 then (c.setBit Reg.cmpstat (8 + n)).gateTest
  else c.setBit Reg.cmpstat (16 + n)

/-- A write to a comparator's configuration (R343). -/
def Chip.writeCmp (c : Chip) (n a : Nat) (v : Word) : Chip :=
  let cfg := if a = Reg.cmpCfg n then v else c.reg (Reg.cmpCfg n)
  let th := if a = Reg.cmpTh n then v else c.reg (Reg.cmpTh n)
  let armed := c.bit (Reg.cmpCfg n) 2 || cfg.getLsbD 2
  if (fld cfg 0 2 = 3 && fld th 16 16 ≤ fld th 0 16) || (armed && !(c.gate.gst matches .open_ | .check)) then
    (c.setBit Reg.cmpstat 24).raise 109
  else
    let c := c.plainWrite a v
    if c.rf (Reg.cmpCfg n) 0 2 = 0 then { c with gate.cmpOut := c.gate.cmpOut.set n false } else c

/-! Results (R327, R338, R339, R344, R346). -/

/-- The fuse accumulator after `dt` ticks (R339). -/
def Chip.heatStep (c : Chip) (dt : Nat) : Nat :=
  let x : Int := c.gate.ishAbs / 1000
  let ir : Int := c.rf Reg.i2tir 0 16
  (clampI 0 (2 ^ 64 - 1) ((c.gate.heat : Int) + (x * x - ir * ir) * dt)).toNat

/-- One energy counter takes `x` µW·ticks: counter and residue, and whether bits [31:0] carried (R346). -/
def energyStep (n res x : Nat) : Nat × Nat × Bool :=
  let t := res + x
  let k := t / 360000000000000
  ((n + k) % 2 ^ 64, t % 360000000000000, 2 ^ 32 ≤ n % 2 ^ 32 + k)

/-- Energy at an AIN2 result (R346). -/
def Chip.meter (c : Chip) (dt : Nat) : Chip :=
  let g := c.gate
  let p := g.vrack * g.ish
  let x := p.natAbs * dt
  let wrapped (c : Chip) (w : Bool) := if w then (c.setBit Reg.gstat 18).raise 62 else c
  if 0 < p then
    let (n, r, w) := energyStep g.eout g.eoutRes x
    wrapped { c with gate.eout := n, gate.eoutRes := r } w
  else
    let (n, r, w) := energyStep g.ein g.einRes x
    wrapped { c with gate.ein := n, gate.einRes := r } w

/-- The current warnings (Table 10.5). -/
def Chip.currentWarnings (c : Chip) : Chip :=
  let g := c.gate
  let lim := (c.reg Reg.ocwarn).toNat
  let rl : Int := c.rf Reg.revcfg 0 16
  let c := if !g.ocw && lim ≤ g.ishAbs then { c with gate.ocw := true }.raise 50
    else if g.ocw && g.ishAbs * 16 < lim * 15 then { c with gate.ocw := false } else c
  if !g.revw && !c.bit Reg.gcfg 1 && g.gst == .closed && c.reversed then { c with gate.revw := true }.raise 58
  else if g.revw && -rl * 500 < g.ish then { c with gate.revw := false } else c

/-- The undervoltage warning (Table 10.5). -/
def Chip.voltageWarning (c : Chip) : Chip :=
  let g := c.gate
  let lim : Int := (c.reg Reg.uvlim).toNat
  if !g.uvw && !c.bit Reg.gcfg 0 && g.gst == .closed && g.vbus ≤ lim then { c with gate.uvw := true }.raise 49
  else if g.uvw && lim + (c.reg Reg.predv).toNat < g.vbus then { c with gate.uvw := false } else c

/-- An AIN2 result: the first at or below CONIOFF releases the contactors (R332). -/
def Chip.currentOff (c : Chip) : Chip :=
  let g := c.gate
  if (g.gst matches .opening | .tripped) && g.ishAbs ≤ (c.reg Reg.conioff).toNat then
    { c with gate.ioff := true, gate.conHigh := false }.conTrack.openingDone
  else c

/-- A value for a 32-bit field; free where it does not fit (log 4). -/
def Chip.fittedGate (c : Chip) (x : Int) : Int := if -(2 ^ 31) ≤ x && x < 2 ^ 31 then x else c.free.toInt

/-- What an AIN2 result does (R334, R338, R339, R344, R346). -/
def Chip.shuntResult (c : Chip) (v : Int) (prev : Option Nat) : Chip :=
  let dt := match prev with | some t => Nat.min 10000 (c.tg.tick - t) | none => 0
  let rev := v ≤ -((c.rf Reg.revcfg 0 16 : Int) * 1000)
  let c := { c with gate.ish := v, gate.psh := c.fittedGate ((c.gate.vrack * v).tdiv 100000),
                    gate.revN := if c.gate.gst == Gst.closed && rev then c.gate.revN + 1 else 0 }
  let c := c.setReg Reg.ipeak (word (Nat.max (c.reg Reg.ipeak).toNat c.gate.ishAbs))
  let c := { c with gate.heat := c.heatStep dt }
  ((c.meter dt).currentWarnings.gateTest).currentOff

/-- An AIN0 result: the agreement of the pre-charge (Table 10.3). -/
def Chip.busResult (c : Chip) (v : Int) : Chip :=
  let c := { c with gate.vbus := v }.voltageWarning.gateTest
  if c.gate.gst ≠ .prechg then c
  else if !c.agrees c.gate.vrack v then { c with gate.agree := 0 }
  else if c.gate.agree < 7 then { c with gate.agree := c.gate.agree + 1 }
  else (c.gateGo .ramp).gateTest

/-- A corrected result of AIN0 to AIN3 (R327). -/
def Chip.gateResult (c : Chip) (ch : Nat) (v : Int) : Chip :=
  let prev := c.gate.last.getD ch none
  let c := { c with gate.last := c.gate.last.set ch (some c.tg.tick) }
  match ch with
  | 0 => c.busResult v
  | 1 => ({ c with gate.vrack := v }.gateTest).rampDone
  | 2 => c.shuntResult v prev
  | _ => ({ c with gate.vsw := v }.gateTest).rampDone

/-! GATE registers (R337, R341, R347, R348 to R351). -/

/-- The cause's condition is absent (R337). -/
def Chip.causeAbsent (c : Chip) : Nat → Bool
  | 0 => !c.cmpTrips
  | 1 => c.inLevel 0
  | 9 => !c.leaks
  | 10 => !c.conDiffers 0 && !c.conDiffers 1
  | _ => true

/-- A write to CAUSECLR (R337). -/
def Chip.causeClear (c : Chip) (v : Word) : Chip :=
  if c.gate.gst ≠ .open_ then c else
  { c with gate.cause := (List.range 13).foldl (fun m i =>
      if v.getLsbD i && c.causeAbsent i then m &&& ~~~(1#13 <<< i) else m) c.gate.cause }

/-- A write to OVLIM, UVLIM or OCLIM is clamped to the fused value, with FCLAMP and event 63 (R341). -/
def Chip.writeLimit (c : Chip) (a : Nat) (v : Word) : Chip :=
  let n := v.toNat
  let x := if a = Reg.ovlim then Nat.min n c.fovp else if a = Reg.oclim then Nat.min n c.focp else Nat.max n c.fuvp
  let c := c.setReg a (word x)
  if x = n then c else (c.setBit Reg.gstat 13).raise 63

/-- A write to ELDCMT (R347). -/
def Chip.energyLoad (c : Chip) (v : Word) : Chip :=
  if !v.getLsbD 0 && !v.getLsbD 1 then c
  else if c.gate.gst ≠ .open_ then c.setBit Reg.gstat 19
  else
    let n := (c.reg Reg.eldlo).toNat + 2 ^ 32 * (c.reg Reg.eldhi).toNat
    let c := if v.getLsbD 0 then { c with gate.eout := n, gate.eoutRes := 0 } else c
    if v.getLsbD 1 then { c with gate.ein := n, gate.einRes := 0 } else c

/-- The code of a gate state (Table 10.2). -/
def Gst.code : Gst → Nat
  | .open_ => 0 | .check => 1 | .prechg => 2 | .ramp => 3 | .close => 4 | .closed => 5 | .opening => 6 | .tripped => 7

/-- I2TLVL (R339). -/
def Chip.i2tLevel (c : Chip) : Nat :=
  let d := (c.reg Reg.i2tlim).toNat * 100000000
  if d = 0 then 0xFFFF else Nat.min 0xFFFF (65536 * c.gate.heat / d)

/-- A read of a GATE register. -/
def readGate (c : Chip) (m : Master) (a : Nat) : Word :=
  let g := c.gate
  if a = Reg.gstat then
    c.reg a ||| pack [(17, b2n g.uvw), (16, b2n g.revw), (15, b2n g.ocw), (0, g.gst.code)]
  else if a = Reg.tripcause then word g.cause.toNat
  else if a = Reg.triptlo then word g.tripTick
  else if a = Reg.eoutlo then word g.eout
  else if a = Reg.einlo then word g.ein
  else if a = Reg.tripthi || a = Reg.eouthi || a = Reg.einhi then c.shadow m a
  else if a = Reg.fovp then word c.fovp
  else if a = Reg.fuvp then word c.fuvp
  else if a = Reg.focp then word c.focp
  else if a = Reg.fvset then word c.fvset
  else if a = Reg.fmax then word c.fmax
  else if a = Reg.fnslot then word c.fnslot
  else if a = Reg.vbus then wordI g.vbus
  else if a = Reg.vrack then wordI g.vrack
  else if a = Reg.vsw then wordI g.vsw
  else if a = Reg.ish then wordI g.ish
  else if a = Reg.ishv then wordI g.ishv
  else if a = Reg.psh then wordI g.psh
  else if a = Reg.i2tlvl then word c.i2tLevel
  else if a = Reg.cmpstat then c.reg a ||| pack ((List.range 8).map fun n => (n, b2n (g.cmpOut.getD n false)))
  else c.reg a

/-- A write to a GATE register. -/
def writeGate (c : Chip) (a : Nat) (v : Word) : Chip :=
  if a = Reg.gcmd then c.writeGcmd v
  else if a = Reg.causeclr then c.causeClear v
  else if a = Reg.glock then (if v.getLsbD 0 then c.setReg a 1 else c)
  else if a = Reg.ovlim || a = Reg.uvlim || a = Reg.oclim then (c.writeLimit a v).gateTest
  else if a = Reg.eldcmt then c.energyLoad v
  else if Reg.cmpCfg 0 ≤ a && a < Reg.cmpCfg 8 then c.writeCmp ((a - Reg.cmpCfg 0) / 8) a v
  else (c.plainWrite a v).conTrack.gateTest

/-- The fused limits as AFE leaves reset (R341). -/
def Chip.gateInit (c : Chip) : Chip :=
  ((c.setReg Reg.ovlim (word c.fovp)).setReg Reg.uvlim (word c.fuvp)).setReg Reg.oclim (word c.focp)

end Sys2Proof.Machine
end

