-- ==== Sys2Proof/Machine/Reset.lean ====
section
/-! DEFINITION. What a reset does: one domain, the removal of power, and the system reset (R48, R49, R88, R110, R440,
R460). Leaving reset is in Power. -/

namespace Sys2Proof.Machine

/-- The registers of one domain's blocks, and the shadows of their counters, return to their reset values (R49). -/
def Chip.dropRegs (c : Chip) (d : Domain) : Chip :=
  { c with regs := c.regs.filter fun p => blockDom p.1 != d,
           shadows := c.shadows.filter fun p => blockDom (p.1 % 2 ^ 32) != d }

/-- A tile's standing as the failover controller keeps it goes with the HUB domain (R305). -/
def Tile.hubReset (t : Tile) : Tile :=
  { t with running := false, stepped := false, doneTick := none, failed := none, shadow := [], shadowBad := false,
           ready := false, sby := false, loaded := false, loadBusy := false, plen := 0 }

/-- An input after a reset of its qualifier: the level on the pin and the qualified level stand, since the pin has not
moved; counts and instability are gone (R49, R443, log 3). -/
def Input.kept (x : Input) : Input := { raw := x.raw, level := x.level, stkAt := x.stkAt }

/-- A domain's registers and logic return to their reset values; memory contents, the flash operation in hand, the
event sequence, held raisings and what AON keeps stay (R49, R91, R436, R440, R476, R482). The back end sees the restart
of SUP and the loss of the HUB's counters (R265, R281). -/
def Chip.domainReset (c : Chip) (d : Domain) : Chip :=
  let c := c.dropRegs d
  match d with
  | .aon => c
  | .tgrid => { c with tg := {} }
  | .sup => { c with strands := List.replicate 8 {}, issue := {}, pmon := List.replicate 8 0, crc := 0xFFFFFFFF,
                     ev := { seq := c.ev.seq, held := c.ev.held }, memc := { op := c.memc.op },
                     upd := {}, est.restart := true, recd.frozen := false }
  | .tile0 => { c with tiles := c.tiles.set 0 {} }
  | .tile1 => { c with tiles := c.tiles.set 1 {} }
  | .hub => { c with hub := {}, loop := {}, alloc := {}, allocPend := List.replicate 4 {},
                     est := { back := c.est.back, reload := true, restart := c.est.restart, gapSeen := c.est.gapSeen }, therm := {}, age := {}, memc.mirOpen := false,
                     fo := {}, tiles := c.tiles.map Tile.hubReset }
  | .afe => { c with gate := {}, adc := {} }
  | .nvm => { c with recd := {}, memc := { c.memc with op := none, merge := none, mergeChk := none } }
  | .seq => { c with seq := {} }
  | .ifc => { c with spl := {}, twb0 := {}, twb1 := {}, inputs := c.inputs.map Input.kept }

/-- A domain loses its power, and with it the contents of its SRAM or loop RAM (R49, R460). -/
def Chip.unpower (c : Chip) (d : Domain) : Chip :=
  let c := { (c.domainReset d) with pwr.powered := c.pwr.powered.set d false }
  match d with
  | .sup => c.blank 0x20000000 0x20040000
  | .tile0 => c.blank 0x21000000 0x21004000
  | .tile1 => c.blank 0x21010000 0x21014000
  | _ => c

/-- A domain is reset and stays held in reset. -/
def Chip.holdReset (c : Chip) (d : Domain) : Chip :=
  { (c.domainReset d) with pwr.held := c.pwr.held.set d true }

/-- Every domain but AON. -/
def domains : List Domain := [.tgrid, .sup, .tile0, .tile1, .hub, .afe, .nvm, .seq, .ifc]

/-- An RSTCAUSE bit is set (R90, Table 3.8). -/
def Chip.resetCause (c : Chip) (i : Nat) : Chip := { c with pwr.rstCause := c.pwr.rstCause ||| (1#32 <<< i) }

/-- What a system reset or VIN low makes of the shelf state (Table 3.5): a waiting transition is applied, then a state
with the rack connected becomes STANDBY, or FAULT-LATCHED if latched. -/
def Chip.shelfDrop (c : Chip) : Chip :=
  let c := c.shelfDue
  if c.shelfUp then c.shelfEnter (if c.pwr.latch then .faultLatched else .standby) c.pwr.fltEvt else c

/-- The boot registers as SUP's reset leaves them (Table 3.9). -/
def Power.bootClear (p : Power) : Power := { p with rcvCause := 0, warm := false, bootSlot := 0, stage := 1 }

/-- The waiting boot goes on to the power and lock stage once VIN is good and RESET# is high (R93, R568). -/
def Chip.bootGo (c : Chip) : Chip :=
  if c.pwr.boot == .waitVin && c.pwr.vinGood && !c.pwr.resetLow && !c.pwr.pfail then
    { c with pwr.boot := .powerLock, pwr.bootAt := c.now }
  else c

/-- A system reset: every domain but AON is reset, HUB and the tiles lose power, PWRCTL clears, and the boot starts at the
power and lock stage once VIN allows and RESET# is high (R88, R93, R110). -/
def Chip.systemReset (c : Chip) (cause : Nat) : Chip :=
  let c := domains.foldl Chip.holdReset c
  let c := ((c.unpower .hub).unpower .tile0).unpower .tile1
  let c := { c with pwr := { c.pwr.bootClear with
    request := 0, boot := .waitVin, bootAt := c.now, wdtRun := false, pfail := false, shipping := false } }
  (c.resetCause cause).shelfDrop.bootGo

/-- A supervisor watchdog restart: SUP alone is reset, with event 3 and RSTCAUSE.WDT, and restarts warm (R92, R96,
R551). Nothing to restart while SUP is down. -/
def Chip.supRestart (c : Chip) : Chip :=
  if !c.up .sup then c else
  let c := c.holdReset .sup
  let c := { c with pwr := { c.pwr.bootClear with boot := .warmRestart, bootAt := c.now, wdtRun := false } }
  (c.resetCause 7).raise 3

end Sys2Proof.Machine
end

