-- ==== Sys2Proof/Machine/Seq.lean ====
section
/-! DEFINITION. The rail sequencer: rails, sequence programs and their step words, the auxiliary input, rack
synchronisation, and the SEQ registers (R369 to R395, R426 to R428; log 34). -/

namespace Sys2Proof.Machine

/-! Rails (R369 to R377). -/

/-- One rail. -/
def Chip.rail (c : Chip) (n : Nat) : Rail := c.seq.rails.getD n {}

/-- Change one rail. -/
def Chip.modRail (c : Chip) (n : Nat) (f : Rail → Rail) : Chip := { c with seq.rails := c.seq.rails.modify n f }

/-- SEQCTL.EN. -/
def Chip.seqEn (c : Chip) : Bool := c.bit Reg.seqctl 0

/-- The code of a rail state (Table 12.1). -/
def RailState.code : RailState → Nat
  | .off => 0 | .rising => 1 | .good => 2 | .fault => 3 | .retry => 4 | .falling => 5 | .latched => 6

/-- The level SEQ drives on SEQ_ENn (Table 12.1). -/
def Rail.high (r : Rail) : Bool := r.driven && (r.st matches .rising | .good | .fault)

/-- The rail's fault timer starts, with the reaction of this moment (R374, R394). -/
def Chip.railFault (c : Chip) (n : Nat) : Chip :=
  let cfg := c.reg (Reg.rnCfg n)
  let c := c.modRail n fun r => { r with st := .fault, faultAt := some c.now, riseAt := none, react := fld cfg 4 2,
                                         nretry := fld cfg 12 4, grp := fld cfg 16 16 }
  ((c.setBit (Reg.rnStat n) 17).setBit Reg.fltrail n).raise (64 + n) n

/-- The rise window in ticks (Table 12.9). -/
def Chip.riseTicks (c : Chip) (n : Nat) : Nat := orOne (c.rf (Reg.rnTim n) 0 16) * 10000

/-- A RISING rail with PG qualified good is GOOD, unless its rise window ends in this tick (R372, R374). -/
def Chip.railRise (c : Chip) (n : Nat) : Chip :=
  let r := c.rail n
  if r.st == .rising && r.pgq then
    (match r.riseAt with
     | some t => if t + c.riseTicks n ≤ c.now then c.railFault n else c.modRail n fun r => { r with st := .good, riseAt := none }
     | none => c.modRail n fun r => { r with st := .good })
  else c

/-- A rail is enabled from OFF (Table 12.2, R373, R375). -/
def Chip.railOn (c : Chip) (n : Nat) : Chip :=
  let r := c.rail n
  if r.driven && r.st == .off then
    (c.modRail n fun r => { r with st := .rising, riseAt := some c.now, chat := 0, retries := 0 }).railRise n
  else c

/-- DCHCH, with other values read as 31 (Table 12.9). -/
def Chip.dchch (c : Chip) (n : Nat) : Nat :=
  let k := c.rf (Reg.rnDch n) 0 5
  if k ≤ 23 then k else 31

/-- A FALLING rail is discharged: OFF, or LATCHED for the failed rail of a shutdown (Table 12.2, R377). -/
def Chip.railDown (c : Chip) (n : Nat) : Chip :=
  if (c.rail n).st == .falling then
    c.modRail n fun r => { r with st := if r.toLatch then .latched else .off, toLatch := false }
  else c

/-- A rail goes to FALLING; with DCHCH = 31 it is discharged once PG is not good (R377). -/
def Chip.railFall (c : Chip) (n : Nat) (latch : Bool) : Chip :=
  let c := c.modRail n fun r => { r with st := .falling, dchAt := c.now, riseAt := none, toLatch := latch }
  if c.dchch n = 31 && !(c.rail n).pgq then c.railDown n else c

/-- A rail is disabled (Table 12.2). -/
def Chip.railOff (c : Chip) (n : Nat) : Chip :=
  match (c.rail n).st with
  | .rising | .good | .fault => c.railFall n false
  | .retry => c.modRail n fun r => { r with st := .off }
  | _ => c

/-- The rails of a mask. -/
def railsOf (mask : Nat) : List Nat := (List.range 16).filter fun n => Nat.testBit mask n

/-- Group shutdown of the failed rails: each goes to FALLING and then to LATCHED; every other rail of the union of
their masks that is up goes to FALLING (Table 12.3, R376). -/
def Chip.groupShutdown (c : Chip) (failed : List Nat) : Chip :=
  let mask := failed.foldl (fun m n => m ||| (c.rail n).grp) 0
  let c := failed.foldl (fun c n =>
    match (c.rail n).st with
    | .falling => c.modRail n fun r => { r with toLatch := true }
    | .off => c.modRail n fun r => { r with st := .latched }
    | .latched => c
    | _ => c.railFall n true) c
  (railsOf mask).foldl (fun c n =>
    if failed.contains n then c
    else match (c.rail n).st with
      | .rising | .good | .fault | .retry => c.railFall n false
      | _ => c) c

/-- The end of one rail's fault timer, group shutdown and system reset apart (Table 12.3). -/
def Chip.faultEnd (c : Chip) (n : Nat) : Chip :=
  let r := c.rail n
  let c := c.modRail n fun r => { r with faultAt := none }
  if r.st ≠ .fault then c
  else if r.react = 0 then (c.modRail n fun r => { r with st := .rising, riseAt := none }).railRise n
  else if r.react = 1 && r.retries < r.nretry then c.modRail n fun r => { r with st := .retry, retryAt := c.now }
  else c

/-- The reaction is a group shutdown: named so, or a retry with none left (Table 12.3, R375). -/
def Rail.shuts (r : Rail) : Bool := r.react = 2 || (r.react = 1 && r.st == .fault && r.nretry ≤ r.retries)

/-! Sequence programs (R378 to R382, R426 to R428). -/

/-- A sequence step (Table 13.21). -/
inductive SeqStep where
  | en (on : Bool) (mask : Nat)
  | wait (us : Nat)
  | jump (cond flag target : Nat)
  | sync (s target : Nat)
  | end_
  | check (down : Bool) (tcode mask target : Nat)
  deriving DecidableEq, Repr

/-- The step a word spells; none for a reserved or malformed word (R426, R428). -/
def seqDecode (w : Word) : Option SeqStep :=
  if w.getLsbD 31 then some (.check (w.getLsbD 26) (fld w 27 4) (fld w 0 16) (fld w 16 10))
  else
    match fld w 26 6 with
    | 1 => if fld w 17 9 = 0 then some (.en (w.getLsbD 16) (fld w 0 16)) else none
    | 2 => if fld w 20 6 = 0 && 1 ≤ fld w 0 20 && fld w 0 20 ≤ 1000000 then some (.wait (fld w 0 20)) else none
    | 3 => if fld w 20 4 = 0 && fld w 10 6 = 0 then some (.jump (fld w 24 2) (fld w 16 4) (fld w 0 10)) else none
    | 4 => if fld w 18 8 = 0 then some (.sync (fld w 10 8) (fld w 0 10)) else none
    | 5 => if fld w 0 26 = 0 then some .end_ else none
    | _ => none

/-- The CHECK timeouts of Table 13.22, ms. -/
def tcodeMs (k : Nat) : Nat :=
  [0, 1, 2, 5, 10, 20, 50, 100, 200, 500, 1000, 2000, 5000, 10000, 30000, 65535].getD k 0

/-- A program fault (R381). -/
def Chip.programFault (c : Chip) (cause : Nat) : Chip :=
  ({ c with seq := { c.seq with run := false, inShut := false, wait := .none, pfCause := cause } }.setBit
    Reg.seqstat 4).raise 95

/-- The program goes on at the next step; past step 511 is a fault (Table 12.5). -/
def Chip.seqNext (c : Chip) : Chip :=
  if 511 ≤ c.seq.pc then c.programFault 5 else { c with seq := { c.seq with pc := c.seq.pc + 1, wait := .none } }

/-- The program goes on at a target (R428). -/
def Chip.seqJump (c : Chip) (t : Nat) : Chip :=
  if 511 < t then c.programFault 2 else { c with seq := { c.seq with pc := t, wait := .none } }

/-- A waiting CHECK is decided by the rails as they now are (Table 12.4). -/
def Chip.seqPoll (c : Chip) : Chip :=
  match c.seq.wait with
  | .check down mask _ target =>
    let st := (railsOf mask).map fun n => (c.rail n).st
    if down then (if st.all (· matches .off | .latched) then c.seqNext else c)
    else if st.any (· matches .off | .falling | .latched) then c.seqJump target
    else if st.all (· == .good) then c.seqNext else c
  | _ => c

/-- A program starts at an entry point, unless one runs (R378, R379). -/
def Chip.seqStart (c : Chip) (shut : Bool) : Chip :=
  if c.seq.run || !c.seqEn then c
  else { c with seq := { c.seq with run := true, inShut := shut, wait := .none,
                                    pc := if shut then c.rf Reg.seqent 16 9 else c.rf Reg.seqent 0 9 } }

/-- The running program ends. -/
def Chip.seqStop (c : Chip) : Chip := { c with seq := { c.seq with run := false, inShut := false, wait := .none } }

/-- A write to SEQCMD (R378). -/
def Chip.writeSeqcmd (c : Chip) (v : Word) : Chip :=
  if fld v 16 16 ≠ 0x5E9C then c else
  let was := c.seq.run
  let c := if v.getLsbD 0 || v.getLsbD 1 then (if was then c.setBit Reg.seqstat 8 else c.seqStart (v.getLsbD 1)) else c
  if v.getLsbD 2 && was then c.seqStop else c

/-- A rail of the mask is not SEQ's to drive (Table 12.5). -/
def Chip.unowned (c : Chip) (mask : Nat) : Bool := (railsOf mask).any fun n => !c.bit (Reg.rnCfg n) 0

/-- END: event 93; after the shutdown program, a new qualification of the auxiliary input with AUXRS = 1 (R380,
R385). -/
def Chip.seqEnd (c : Chip) : Chip :=
  let shut := c.seq.inShut
  let c := c.seqStop.raise 93
  if shut && c.bit Reg.seqctl 3 && c.bit Reg.seqctl 2 then
    { c with seq.auxRe := true, seq.auxHiAt := c.seq.auxHiAt.map fun _ => c.now }
  else c

/-- SYNC s (R389). -/
def Chip.seqSync (c : Chip) (s target : Nat) : Chip :=
  let tmo := c.rf Reg.synccfg 0 16
  if !c.bit Reg.seqctl 1 || s = c.seq.syncSt then c.seqNext
  else if s = (c.seq.syncSt + 1) % 256 then
    { c with seq.wait := .sync s (if tmo = 0 then none else some (c.now + tmo * 100000)) target }
  else c.programFault 4

/-- JUMP's condition (Table 13.21). -/
def Chip.seqCond (c : Chip) (cond flag : Nat) : Bool :=
  match cond with
  | 0 => true
  | 1 => c.seq.auxGood
  | 2 => c.bit Reg.swflag flag
  | _ => !c.bit Reg.swflag flag

/-- What a step does (R380). -/
def Chip.seqStep (c : Chip) : SeqStep → Chip
  | .en on mask =>
    if c.unowned mask then c.programFault 3
    else ((railsOf mask).foldl (fun c n => if on then c.railOn n else c.railOff n) c).seqNext
  | .wait us => { c with seq.wait := .time (c.now + us * 100) }
  | .jump cond flag target => if c.seqCond cond flag then c.seqJump target else c.seqNext
  | .sync s target => c.seqSync s target
  | .end_ => c.seqEnd
  | .check down tcode mask target =>
    if c.unowned mask then c.programFault 3
    else
      let ms := tcodeMs tcode
      { c with seq.wait := .check down mask (if ms = 0 then none else some (c.now + ms * 100000)) target }.seqPoll

/-- The step word at SEQPC. -/
def Chip.stepWord (c : Chip) : Word := c.reg (Reg.stepMem c.seq.pc)

/-- The sequencer has a step to execute. -/
def Chip.seqReady (c : Chip) : Bool := c.up .seq && c.seq.run && c.seq.wait == .none

/-- The sequencer executes its step if it is of the kind the command names. -/
def Chip.seqRun (c : Chip) (kind : SeqStep → Bool) : Chip :=
  match c.seqReady, seqDecode c.stepWord with
  | true, some st => if kind st then c.seqStep st else c
  | _, _ => c

/-- The sequencer reaches a reserved or malformed step word (R428). -/
def Chip.seqReserved (c : Chip) : Chip :=
  if c.seqReady && (seqDecode c.stepWord).isNone then c.programFault 1 else c

/-- WAIT_EXPIRY (R380). -/
def Chip.waitExpiry (c : Chip) : Chip :=
  match c.up .seq, c.seq.wait with
  | true, .time due => (c.elapseTo due).seqNext
  | _, _ => c

/-- CHECK_TIMEOUT (R380). -/
def Chip.checkTimeout (c : Chip) : Chip :=
  match c.up .seq, c.seq.wait with
  | true, .check _ _ (some due) target => (c.elapseTo due).seqJump target
  | _, _ => c

/-! Timers of the rails. -/

/-- RISE_WINDOW_EXPIRY (R372). -/
def Chip.riseExpiry (c : Chip) (n : Nat) : Chip :=
  match c.up .seq && (c.rail n).st == .rising, (c.rail n).riseAt with
  | true, some t => ((c.elapseTo (t + c.riseTicks n)).railFault n).seqPoll
  | _, _ => c

/-- FAULT_TIMER_END: every fault timer that has ended by this tick is resolved (R375, R376). -/
def Chip.faultTimerEnd (c : Chip) (n : Nat) : Chip :=
  match c.up .seq, (c.rail n).faultAt with
  | true, some t =>
    let dly (k : Nat) := c.rf (Reg.rnQual k) 16 8 * 1000
    let c := c.elapseTo (t + dly n)
    let ended := (List.range 16).filter fun k => match (c.rail k).faultAt with | some t => t + dly k ≤ c.now | none => false
    if ended.any fun k => (c.rail k).react = 3 then c.systemReset 6
    else
      let failed := ended.filter fun k => (c.rail k).shuts
      ((ended.foldl Chip.faultEnd c).groupShutdown failed).seqPoll
  | _, _ => c

/-- RETRYOFF_EXPIRY (R372). -/
def Chip.retryExpiry (c : Chip) (n : Nat) : Chip :=
  if !(c.up .seq && (c.rail n).st == .retry) then c else
  let c := c.elapseTo ((c.rail n).retryAt + orOne (c.rf (Reg.rnQual n) 24 8) * 1000000)
  ((c.modRail n fun r => { r with st := .rising, riseAt := some c.now, retries := r.retries + 1 }).railRise n).seqPoll

/-- DISCHARGED (R377). -/
def Chip.discharged (c : Chip) (n : Nat) : Chip := if c.up .seq then (c.railDown n).seqPoll else c

/-- DCHTMO_EXPIRY (R377). -/
def Chip.dchExpiry (c : Chip) (n : Nat) : Chip :=
  if !(c.up .seq && (c.rail n).st == .falling) then c else
  let c := c.elapseTo ((c.rail n).dchAt + orOne (c.rf (Reg.rnTim n) 16 16) * 100000)
  ((((c.setBit (Reg.rnStat n) 18).setBit Reg.fltrail (16 + n)).raise 94 n).railDown n).seqPoll

/-! Power-good inputs (R370, R373). -/

/-- QUAL in ticks. -/
def Chip.qualTicks (c : Chip) (n : Nat) : Nat := orOne (c.rf (Reg.rnQual n) 0 8) * 10000

/-- The filtered PG level of a rail, as it now is: a change that did not survive QUAL counts as chatter, and more of
them than CHATLIM is a fault (R372, R373). -/
def Chip.pgLevel (c : Chip) (n : Nat) : Chip :=
  let r := c.rail n
  let level := c.inLevel (16 + n)
  if level = r.pgLevel then c else
  let lost := r.pgChg && c.now < r.pgSince + c.qualTicks n && (r.st matches .rising | .good)
  let c := c.modRail n fun r =>
    { r with pgLevel := level, pgSince := c.now, pgChg := true, chat := if lost then satAdd 255 r.chat 1 else r.chat }
  if lost && c.rf (Reg.rnQual n) 8 8 < (c.rail n).chat then c.railFault n else c

/-- SEQ follows its sixteen PG inputs. -/
def Chip.seqInputs (c : Chip) : Chip := if c.up .seq then (List.range 16).foldl Chip.pgLevel c else c

/-- PG_QUALIFIED: the filtered level has held for QUAL (R370, R372, R374, R377). -/
def Chip.pgQualified (c : Chip) (n : Nat) : Chip :=
  if !c.up .seq || (c.rail n).pgLevel = (c.rail n).pgq then c else
  let c := c.elapseTo ((c.rail n).pgSince + c.qualTicks n)
  let c := c.modRail n fun r => { r with pgq := r.pgLevel, pgChg := false }
  let r := c.rail n
  let c := if r.st == .good && !r.pgq then c.railFault n
    else if r.st == .falling && c.dchch n = 31 && !r.pgq then c.railDown n
    else c.railRise n
  c.seqPoll

/-! The auxiliary input (R383 to R385). -/

/-- The auxiliary rules run. -/
def Chip.auxOn (c : Chip) : Bool := c.up .seq && c.seqEn && c.bit Reg.seqctl 2

/-- The auxiliary input is lost (R383, R384). -/
def Chip.auxLost (c : Chip) : Chip :=
  if !c.auxOn || !c.seq.auxGood then c else
  let c := { c with seq.auxGood := false, seq.auxRe := false }.raise 8
  if c.seq.inShut then c else c.seqStop.seqStart true

/-- AUXILIARY_GOOD: the input has stayed at or above AUXHI for AUXQ (R383, R385). -/
def Chip.auxiliaryGood (c : Chip) : Chip :=
  match c.auxOn && (!c.seq.auxGood || c.seq.auxRe), c.seq.auxHiAt with
  | true, some t =>
    let c := c.elapseTo (t + orOne (c.rf Reg.auxcfg 8 8) * 100000)
    let re := c.seq.auxRe
    let c := c.raiseIf (!c.seq.auxGood) 9
    let c := { c with seq.auxGood := true, seq.auxRe := false }
    if re then c.seqStart false else c
  | _, _ => c

/-- AUXILIARY_STALE (R383). -/
def Chip.auxiliaryStale (c : Chip) : Chip :=
  if !c.auxOn || c.seq.auxStale then c
  else { c.elapseTo (c.seq.auxLast + 10000) with seq.auxStale := true }

/-- A result of the auxiliary channel (R383). -/
def Chip.auxResult (c : Chip) (mv : Int) : Chip :=
  let low := mv < (c.reg Reg.auxlo).toNat
  let high := ((c.reg Reg.auxhi).toNat : Int) ≤ mv
  let q := c.seq
  let c := { c with seq := { q with auxLast := c.now, auxStale := false, auxLow := if low then q.auxLow + 1 else 0,
                                    auxHiAt := if high then some (q.auxHiAt.getD c.now) else none } }
  if orOne (c.rf Reg.auxcfg 5 3) ≤ c.seq.auxLow then c.auxLost else c

/-- A corrected AIN result at SEQ (R377, R383). -/
def Chip.seqResult (c : Chip) (ch : Nat) (mv : Int) : Chip :=
  if !c.up .seq then c else
  let c := if c.auxOn && c.rf Reg.auxcfg 0 5 = ch then c.auxResult mv else c
  ((List.range 16).foldl (fun c n =>
    if (c.rail n).st == .falling && c.dchch n = ch && mv ≤ c.rf (Reg.rnDch n) 16 16 then c.railDown n else c) c).seqPoll

/-! Rack synchronisation (R387 to R389). -/

/-- The SYNC rules run. -/
def Chip.syncOn (c : Chip) : Bool := c.up .seq && c.seqEn && c.bit Reg.seqctl 1

/-- A SYNC step waits. -/
def Seq.syncWaits (q : Seq) : Bool := q.wait matches .sync ..

/-- SEQ drives SYNC low (R388). -/
def Chip.syncLow (c : Chip) : Bool :=
  let q := c.seq
  let ready := !q.run || q.syncWaits
  let since := q.lastRise.map fun t => c.now - t
  c.syncOn &&
    ((!ready && (match since with | some n => 300 ≤ n | none => true)) ||
     (q.run && (match since with | some n => 300 ≤ n && n ≤ 399 | none => false)))

/-- SYNC_RISE: the line is qualified high; after a qualified low it is a rise (R387, R389). -/
def Chip.syncRise (c : Chip) : Chip :=
  if !c.up .seq then c else
  let rise := c.seq.lineLo
  let c := { c with seq.lineHi := true, seq.lineLo := false }
  if !rise || !c.syncOn then c else
  let c := { c with seq.lastRise := some c.now, seq.syncSt := (c.seq.syncSt + 1) % 256 }
  match c.seq.wait with
  | .sync s _ _ => if s = c.seq.syncSt then c.seqNext else c
  | _ => c

/-- SYNC_QUALIFIED_LOW (R387). -/
def Chip.syncFell (c : Chip) : Chip := if c.up .seq then { c with seq.lineLo := true, seq.lineHi := false } else c

/-- SYNC_TIMEOUT (R389). -/
def Chip.syncTimeout (c : Chip) : Chip :=
  match c.up .seq, c.seq.wait with
  | true, .sync _ (some due) target => (((c.elapseTo due).setBit Reg.seqstat 10).raise 92).seqJump target
  | _, _ => c

/-- SYNC_PULSE_TIMER: the next of the instants 300 and 400 ticks after the last rise, which `Chip.syncLow` reads
(R388). -/
def Chip.syncPulse (c : Chip) : Chip :=
  match c.syncOn, c.seq.lastRise with
  | true, some t =>
    if c.now < t + 300 then c.elapseTo (t + 300) else if c.now < t + 400 then c.elapseTo (t + 400) else c
  | _, _ => c

/-! SEQ registers (R390 to R395). -/

/-- A rail's pin is taken over: its state follows the level the board holds it at (R62, R369). -/
def Chip.railTake (c : Chip) (n : Nat) : Chip :=
  if !(c.bit (Reg.rnCfg n) 0 && c.seqEn) || (c.rail n).driven then c
  else if !Config.seqEnPull n then c.modRail n fun r => { r with driven := true, st := .off }
  else (c.modRail n fun r => { r with driven := true, st := .rising, riseAt := some c.now }).railRise n

/-- A write to RnCFG; DRV = 0 releases the pin, and the rail stays OFF (R369, R394). -/
def Chip.writeRncfg (c : Chip) (n : Nat) (v : Word) : Chip :=
  let c := c.plainWrite (Reg.rnCfg n) v
  if v.getLsbD 0 then c.railTake n
  else (c.modRail n fun r => { r with driven := false, st := .off, riseAt := none, faultAt := none, toLatch := false }).seqPoll

/-- A write to SEQCTL (R383, R387, R391). -/
def Chip.writeSeqctl (c : Chip) (v : Word) : Chip :=
  let old := c.reg Reg.seqctl
  let c := c.plainWrite Reg.seqctl v
  let rose (i : Nat) : Bool := v.getLsbD i && !old.getLsbD i
  let c := if rose 2 then { c with seq := { c.seq with auxGood := true, auxLow := 0, auxHiAt := none, auxLast := c.now,
                                                       auxStale := false, auxRe := false } } else c
  let c := if rose 1 then { c with seq.lastRise := none } else c
  let c := if !v.getLsbD 1 && c.seq.syncWaits then c.seqNext else c
  if v.getLsbD 0 then ((List.range 16).foldl Chip.railTake c).seqPoll else c.seqStop

/-- A write to RAILCMD (R382). -/
def Chip.railcmd (c : Chip) (v : Word) : Chip :=
  if c.seq.run then c.setBit Reg.seqstat 8 else
  (List.range 16).foldl (fun c n => if v.getLsbD (16 + n) then c.railOff n else if v.getLsbD n then c.railOn n else c) c

/-- A write to RAILCLR (R382). -/
def Chip.railclr (c : Chip) (v : Word) : Chip :=
  ((List.range 16).foldl (fun c n =>
    if v.getLsbD n && (c.rail n).st == .latched then c.modRail n fun r => { r with st := .off } else c) c).seqPoll

/-- A read of a SEQ register. -/
def readSeq (c : Chip) (a : Nat) : Word :=
  let q := c.seq
  if a = Reg.seqstat then
    c.reg a ||| pack [(0, b2n q.run), (1, b2n q.inShut), (2, b2n q.auxGood), (3, b2n q.auxStale), (5, q.pfCause)]
  else if a = Reg.seqpc then word q.pc
  else if a = Reg.railon then
    pack ((List.range 16).map fun n => (n, b2n (c.rail n).high)) |||
      pack ((List.range 16).map fun n => (16 + n, b2n (c.rail n).pgq))
  else if a = Reg.syncstat then
    pack [(0, q.syncSt), (8, b2n q.lineHi), (9, b2n c.syncLow), (10, b2n q.syncWaits)]
  else if Reg.rnStat 0 ≤ a && a < Reg.rnStat 16 then
    let r := c.rail ((a - Reg.rnStat 0) / 4)
    c.reg a ||| pack [(0, r.st.code), (4, r.retries), (8, r.chat), (16, b2n r.pgq)]
  else c.reg a

/-- A write to a SEQ register. -/
def writeSeq (c : Chip) (a : Nat) (v : Word) : Chip :=
  if a = Reg.seqctl then c.writeSeqctl v
  else if a = Reg.seqcmd then c.writeSeqcmd v
  else if a = Reg.railcmd then c.railcmd v
  else if a = Reg.railclr then c.railclr v
  else if a = Reg.syncset then (if c.seq.syncWaits then c else { c with seq.syncSt := fld v 0 8 })
  else if Reg.stepMem 0 ≤ a && a < Reg.stepMem 512 then
    (if c.seq.run then c.setBit Reg.seqstat 9 else c.plainWrite a v)
  else
    match (List.range 16).find? fun n => a = Reg.rnCfg n with
    | some n => c.writeRncfg n v
    | none => c.plainWrite a v

end Sys2Proof.Machine
end

