-- ==== Sys2Proof/Machine/Crc.lean ====
section
/-! DEFINITION. The fixed check of R13 and the CRC block (R16 to R18). -/

namespace Sys2Proof.Machine

/-- One bit of the reflected CRC-32C shift (R13): polynomial 0x1EDC_6F41 reflected. -/
def crcShift (s : Word) : Word := if s.getLsbD 0 then (s >>> 1) ^^^ 0x82F63B78 else s >>> 1

/-- One byte of the check (R13). -/
def crcByteStep (s : Word) (b : Byte) : Word :=
  crcShift (crcShift (crcShift (crcShift (crcShift (crcShift (crcShift (crcShift (s ^^^ b.zeroExtend 32))))))))

/-- Bytes in order. -/
def crcBytes (s : Word) (bs : List Byte) : Word := bs.foldl crcByteStep s

/-- The four bytes of a word, least significant first (R11). -/
def wordBytes (w : Word) : List Byte := natBytes 4 w.toNat

/-- The fixed check of R13 over some bytes, no context word. -/
def check (bs : List Byte) : Word := crcBytes 0xFFFFFFFF bs ^^^ 0xFFFFFFFF

/-- The fixed check with a context word processed first (R15). -/
def checkCtx (ctx : Word) (bs : List Byte) : Word := check (wordBytes ctx ++ bs)

/-- A read of a CRC register (Table 0.7). -/
def readCrc (c : Chip) (a : Nat) : Word :=
  if a = Reg.crcres then c.crc ^^^ 0xFFFFFFFF
  else if a = Reg.crcstate then c.crc
  else 0

/-- A write to a CRC register (R16, R17). -/
def writeCrc (c : Chip) (a : Nat) (v : Word) : Chip :=
  if a = Reg.crcctl then (if v.getLsbD 0 then { c with crc := 0xFFFFFFFF } else c)
  else if a = Reg.crcdata then { c with crc := crcBytes c.crc (wordBytes v) }
  else if a = Reg.crcbyte then { c with crc := crcByteStep c.crc (v.truncate 8) }
  else if a = Reg.crcstate then { c with crc := v }
  else c

end Sys2Proof.Machine
end

