-- ==== Sys2Proof/Machine/Mem.lean ====
section
/-! DEFINITION. The memories and their protection: parity, SECDED, poison, retirement, the merge buffer, the error log and
the scrubber (R21, R458 to R472). -/

namespace Sys2Proof.Machine

/-- The memory code of an address (R466): 0 data SRAM, 1 and 2 loop RAMs, 3 program flash, 4 record store. -/
def memCode (a : Nat) : Nat :=
  if a < 0x100000 then 3 else if a < 0x140000 then 4 else if a < 0x21000000 then 0
  else if a < 0x21010000 then 1 else 2

/-- Whether an address lies in boot ROM (Table 1.12). -/
def inBootRom (a : Nat) : Bool := 0x10000000 ≤ a && a < 0x10004000

/-- Whether an address lies in data SRAM (Table 1.12). -/
def inSram (a : Nat) : Bool := 0x20000000 ≤ a && a < 0x20040000

/-- Whether an address lies in a loop RAM (Table 1.12). -/
def inLoopRam (a : Nat) : Bool := (0x21000000 ≤ a && a < 0x21004000) || (0x21010000 ≤ a && a < 0x21014000)

/-- Whether an address lies in program flash or record store (Table 1.12). -/
def inFlash (a : Nat) : Bool := a < 0x140000

/-- Whether a memory row of Table 1.12 covers the address. -/
def inMemory (a : Nat) : Bool := inFlash a || inBootRom a || inSram a || inLoopRam a

/-- The domain that holds a memory (Table 1.12). -/
def memDom (a : Nat) : Domain :=
  if inFlash a then .nvm else if a < 0x21000000 then .sup else if a < 0x21010000 then .tile0 else .tile1

/-- The tile whose loop RAM holds the address. -/
def ramTile (a : Nat) : Nat := if a < 0x21010000 then 0 else 1

/-! Parity (R459). -/

/-- Even parity of a byte. -/
def parity (b : Byte) : Bool :=
  (List.range 8).foldl (fun p i => p != b.getLsbD i) false

/-- Mark a byte's stored parity as wrong. -/
def addBad (l : List Nat) (a : Nat) : List Nat := (l.filter (· < a)) ++ a :: l.filter (a < ·)

/-- A byte written with good parity (R459). -/
def Chip.putByte (c : Chip) (a : Nat) (b : Byte) : Chip :=
  { c.setByte a b with badPar := c.badPar.filter (· ≠ a) }

/-- `n` bytes written with good parity, little-endian. -/
def Chip.putBytes (c : Chip) (a v : Nat) : Nat → Chip
  | 0 => c
  | n + 1 => (c.putByte a (BitVec.ofNat 8 v)).putBytes (a + 1) (v / 256) n

/-- One byte written with a given stored parity bit (R472). -/
def Chip.putByteChk (c : Chip) (a : Nat) (b : Byte) (p : Bool) : Chip :=
  let c := c.putByte a b
  if p = parity b then c else { c with badPar := addBad c.badPar a }

/-- Some byte of a span has bad parity. -/
def Chip.parityBad (c : Chip) (a n : Nat) : Bool := c.badPar.any fun b => a ≤ b && b < a + n

/-! SECDED (R461, R462). -/

/-- The code positions of the data bits: the integers from 3 to 71 that are no power of two. -/
def codePos : List Nat := (List.range 72).filter fun n => n ≥ 3 && !([4, 8, 16, 32, 64].contains n)

/-- Check bits c0 to c6 of a 64-bit word: the exclusive OR of the positions of its ones (R461). -/
def eccSyndrome (d : BitVec 64) : Nat :=
  (codePos.mapIdx fun i p => if d.getLsbD i then p else 0).foldl Nat.xor 0

/-- The parity of the low `n` bits of a number. -/
def natParity : Nat → Nat → Bool
  | 0, _ => false
  | n + 1, v => (v % 2 = 1) != natParity n (v / 2)

/-- The eight check bits of a 64-bit word (R461). -/
def eccBits (d : BitVec 64) : Byte :=
  let s := eccSyndrome d
  BitVec.ofNat 8 (s + 128 * b2n (natParity 64 d.toNat != natParity 7 s))

/-- The stored 64 data bits of the flash word holding an address. -/
def Chip.flashData (c : Chip) (a : Nat) : BitVec 64 := BitVec.ofNat 64 (c.bytesNat (a / 8 * 8) 8)

/-- The stored check bits of the flash word holding an address: an erased word stores ones. -/
def Chip.flashChk (c : Chip) (a : Nat) : Byte :=
  (tget c.ecc (a / 8 * 8)).getD (if c.flashData a = BitVec.allOnes 64 then 0xFF else eccBits (c.flashData a))

/-- A word whose 72 stored bits are all 1 is erased (R462). -/
def Chip.erased (c : Chip) (a : Nat) : Bool := c.flashData a = BitVec.allOnes 64 && c.flashChk a = 0xFF

/-- Outcome of a flash read (Table 15.2): the word, whether a single error was corrected; none if uncorrectable. -/
def Chip.flashRead (c : Chip) (a : Nat) : Option (BitVec 64 × Bool) :=
  let d := c.flashData a
  if c.erased a then some (d, false) else
  let chk := (c.flashChk a).toNat
  let s := Nat.xor (eccSyndrome d) (chk % 128)
  let odd := natParity 64 d.toNat != natParity 8 chk
  if odd then
    match codePos.findIdx? (· = s) with
    | some i => some (d ^^^ (1#64 <<< i), true)
    | none => some (d, true)
  else if s = 0 then some (d, false) else none

/-- Store a flash word with its check bits (R461, R472). -/
def Chip.flashStore (c : Chip) (a : Nat) (lo hi : Word) (chk : Option Byte) : Chip :=
  let b := a / 8 * 8
  let c := (c.setBytesNat b lo.toNat 4).setBytesNat (b + 4) hi.toNat 4
  let d := c.flashData b
  let stored := chk.getD (eccBits d)
  let norm := if d = BitVec.allOnes 64 then (0xFF : Byte) else eccBits d
  { c with ecc := if stored = norm then tdel c.ecc b else tset c.ecc b stored }

/-! The error log (R468). -/

/-- Enter an error in the log, or set LOGOVF where it is full (R468). -/
def Chip.memLog (c : Chip) (kind : Nat) (m : Master) (a : Nat) : Chip :=
  if 16 ≤ c.memc.log.length then c.setBit Reg.memstat 0
  else { c with memc.log := c.memc.log ++
    [{ kind := kind, mem := memCode a, master := masterCode m, addr := a, stamp := c.tg.tick }] }

/-- What an occurrence of an access carries for PMON. -/
def Chip.accessOccur (c : Chip) (m : Master) (sel a : Nat) : Occur :=
  { sel := sel, code := some (masterCode m), user := some (c.userLevel m), point := some a }

/-- A bus error is counted by PMON.SEL 8. -/
def Chip.busErrors (c : Chip) (m : Master) (a : Nat) : Chip := c.pmonAdd (c.accessOccur m 8 a)

/-- The page of a data SRAM address. -/
def sramPage (a : Nat) : Nat := (a - 0x20000000) / 1024

/-- A parity error on access: event 112, the log and PMON.SEL 9 (R435, R459). -/
def Chip.parityError (c : Chip) (m : Master) (a : Nat) : Chip :=
  ((c.raise 112 (masterCode m)).memLog 0 m a).pmonAdd
    { sel := 9, code := some (masterCode m), point := some a }

/-- CHKCTL selects the memory at an address as its target (R472). -/
def Chip.chkTarget (c : Chip) (a : Nat) : Bool :=
  let t := c.rf Reg.chkctl 1 2
  if inSram a then t == 0 else if inLoopRam a then t == ramTile a + 1 else a < 0x100000 && t == 3

/-- The stored check bits that a raw read loads into CHKRD (R472). -/
def Chip.storedChk (c : Chip) (a : Nat) : Nat :=
  if inFlash a then (c.flashChk a).toNat
  else (List.range 4).foldl (fun n i =>
    let b := a / 4 * 4 + i
    n + b2n (parity (c.byte b) != c.badPar.contains b) * 2 ^ i) 0

/-- A retired page counts the access (R470). -/
def Chip.retiredAccess (c : Chip) : Chip := { c with memc.retAcc := satAdd 0xFFFF c.memc.retAcc 1 }

/-- Read `n` bytes of a memory as master `m`, alignment already tested; no value is a bus error (R435, R459, R462, R469,
R470, R472). -/
def Chip.memRead (c : Chip) (m : Master) (a n : Nat) : Option Nat × Chip :=
  if !c.up (memDom a) then (none, c) else
  let c := c.pmonAdd (c.accessOccur m 6 a)
  if inBootRom a then
    (some (bytesVal ((List.range n).map fun i => Config.bootRom (a - 0x10000000 + i))), c)
  else if inSram a && c.memc.retired.getLsbD (sramPage a) then (none, c.retiredAccess)
  else if c.bit Reg.chkctl 3 && c.chkTarget a then
    (some (c.bytesNat a n), { c with memc.chkRd := c.storedChk a })
  else if inFlash a then
    match c.flashRead a with
    | none => (none, (c.raise 115 (masterCode m)).memLog 3 m a)
    | some (d, fixed) =>
      let v := d.toNat / 256 ^ (a % 8) % 256 ^ n
      (some v, if fixed then (((c.raise 114 (masterCode m)).memLog 2 m a).count Reg.fcorr 0 32 1) else c)
  else if inSram a && c.memc.poison.getLsbD (sramPage a) then (none, c.raise 112 (masterCode m))
  else if c.parityBad a n then (none, c.parityError m a)
  else (some (c.bytesNat a n), c)

/-- Who may write an offset of tile `t`'s loop RAM (R21). -/
def Chip.loopWriter (c : Chip) (m : Master) (t off : Nat) : Bool :=
  let ready := (c.tile t).ready
  match m with
  | .hub => off < 0x800 || (0x1400 ≤ off && off < 0x1800) || (0x1C00 ≤ off && off < 0x1C20)
  | .scrubber => 0x1400 ≤ off && off < 0x1800
  | .tile u =>
    u.val = t && ((0x800 ≤ off && off < 0xC00) || (0x1400 ≤ off && off < 0x1C00) ||
      (ready && 0x2000 + (c.tile t).plen ≤ off && off < 0x4000))
  | .strand _ =>
    (0xC00 ≤ off && off < 0x1400) || (0x1C20 ≤ off && off < 0x1C24) || (!ready && 0x2000 ≤ off && off < 0x4000)
  | _ => false

/-- Strands may program and erase the settings copies (R463, R557, R558; log 11). -/
def settingsSpan (a : Nat) : Bool := 0xF0000 ≤ a && a < 0xFE000

/-- Finish the flash operation in progress (R463). -/
def Chip.finishFlash (c : Chip) : Chip :=
  match c.memc.op with
  | none => c
  | some (.program a lo hi chk) => { (c.flashStore a lo hi chk) with memc.op := none }
  | some (.erase a) => { (c.blank (a / 4096 * 4096) (a / 4096 * 4096 + 4096)) with memc.op := none }

/-- Start programming a flash word from the merge buffer: not if the word is not erased (R463, R464). -/
def Chip.programWord (c : Chip) (a : Nat) (lo hi : Word) (chk : Option Byte) : Chip :=
  let c := c.finishFlash
  if c.erased a then { c with memc.op := some (.program a lo hi chk) }
  else c.setBit Reg.memstat 1

/-- Program what the merge buffer holds: a missing half as ones, with MERGEPART (R464). -/
def Chip.flushMerge (c : Chip) : Chip :=
  match c.memc.merge with
  | none => c
  | some (a, lo, hi) =>
    let c := if lo.isNone || hi.isNone then c.setBit Reg.memstat 2 else c
    let chk := c.memc.mergeChk
    { c with memc.merge := none, memc.mergeChk := none }.programWord a (lo.getD 0xFFFFFFFF) (hi.getD 0xFFFFFFFF) chk

/-- A strand's store to program flash through the merge buffer (R464; a byte or halfword store fills the rest of its
half with ones, log 12). -/
def Chip.mergeStore (c : Chip) (sysLevel : Bool) (a v n : Nat) : Chip :=
  let w := a / 8 * 8
  let c := match c.memc.merge with
    | some (b, _, _) => if b = w then c else c.flushMerge
    | none => c
  let half := word ((2 ^ 32 - 1) - (256 ^ n - 1) * 256 ^ (a % 4) + v % 256 ^ n * 256 ^ (a % 4))
  let (lo, hi) := match c.memc.merge with
    | some (_, lo, hi) => (lo, hi)
    | none => (none, none)
  let (lo, hi) := if a % 8 < 4 then (some half, hi) else (lo, some half)
  let chk := if c.bit Reg.chkctl 0 && c.rf Reg.chkctl 1 2 == 3 && n == 4 && sysLevel then
      some ((c.reg Reg.chkbits).truncate 8) else c.memc.mergeChk
  let c := { c with memc.merge := some (w, lo, hi), memc.mergeChk := chk }
  if lo.isSome && hi.isSome then c.flushMerge else c

/-- A store of `n` bytes of a memory as master `m`, alignment already tested; false is a bus error (R21, R459, R463,
R470, R472). -/
def Chip.memWrite (c : Chip) (m : Master) (a v n : Nat) : Bool × Chip :=
  if !c.up (memDom a) then (false, c) else
  let c := c.pmonAdd (c.accessOccur m 7 a)
  let isStrand := match m with | .strand _ => true | _ => false
  let chkStore := c.bit Reg.chkctl 0 && c.chkTarget a && n == 4 && isStrand && !c.userLevel m
  if inBootRom a then (false, c)
  else if inFlash a then
    if isStrand && settingsSpan a then (true, c.mergeStore (!c.userLevel m) a v n) else (false, c)
  else if inSram a && c.memc.retired.getLsbD (sramPage a) then (false, c.retiredAccess)
  else if inLoopRam a && !c.loopWriter m (ramTile a) (a - loopRam (ramTile a)) then (false, c)
  else if chkStore then
    (true, (List.range 4).foldl (fun c i =>
      c.putByteChk (a + i) (BitVec.ofNat 8 (v / 256 ^ i)) (c.bit Reg.chkbits i)) c)
  else (true, c.putBytes a v n)

/-! The scrubber (R465 to R467). -/

/-- First address and size of a memory by its code. -/
def memSpan (code : Nat) : Nat × Nat :=
  match code with
  | 0 => (0x20000000, 0x40000)
  | 1 => (0x21000000, 0x4000)
  | 2 => (0x21010000, 0x4000)
  | 3 => (0, 0x100000)
  | _ => (0x100000, 0x40000)

/-- Bytes scrubbed at once: a word of parity memory, a 64-bit word of flash. -/
def scrubUnit (code : Nat) : Nat := if code < 3 then 4 else 8

/-- Move the scrubber on; after the record store a pass is complete (R465; order of memories: log 13). -/
def Chip.scrubNext (c : Chip) (off : Nat) : Chip :=
  if off < (memSpan c.memc.scrMem).2 then { c with memc.scrOff := off }
  else if c.memc.scrMem < 4 then { c with memc.scrMem := c.memc.scrMem + 1, memc.scrOff := 0 }
  else { c with memc.scrMem := 0, memc.scrOff := 0 }.count Reg.scrcnt 0 16 1

/-- An error that the scrubber found is counted and logged (R466, MEM.SCRCNT). -/
def Chip.scrubFound (c : Chip) (kind a : Nat) : Chip :=
  (c.count Reg.scrcnt 16 16 1).memLog kind .scrubber a

/-- A bad mirror word is rewritten from the other tile's region if that is good, in the next tick (R467). -/
def Chip.mirrorRepair (c : Chip) (a : Nat) : Chip :=
  let t := ramTile a
  let other := a - loopRam t + loopRam (1 - t)
  if c.parityBad other 4 then c
  else (c.elapse 1).putBytes a (c.bytesNat other 4) 4

/-- The scrubber reads one word and handles an error (R466, R467). -/
def Chip.scrubWord (c : Chip) (a : Nat) : Chip :=
  let code := memCode a
  if code = 0 then
    if c.memc.retired.getLsbD (sramPage a) || !c.parityBad a 4 then c
    else (({ c with memc.poison := c.memc.poison ||| (1#256 <<< sramPage a) }).raise 113 (sramPage a)).scrubFound 1 a
  else if code < 3 then
    let off := a - loopRam (ramTile a)
    if !c.parityBad a 4 then c
    else if 0x1400 ≤ off && off < 0x1800 then (c.scrubFound 1 a).mirrorRepair a
    else (c.raise 113 (code * 4096)).scrubFound 1 a
  else
    match c.flashRead a with
    | some (_, false) => c
    | some (_, true) => (((c.raise 114 14).scrubFound 2 a).count Reg.fcorr 0 32 1)
    | none => (c.raise 113 (code * 4096 + (a - (memSpan code).1) / 4096)).scrubFound 3 a

/-- SCRUB_STEP: the scrubber reads its next word. It passes over a memory whose domain is down, and over a mirror word
outside the interval of R467 (R465; log 13). -/
def Chip.scrubStep (c : Chip) : Chip :=
  if !(c.up .sup && c.bit Reg.memctl 0) then c else
  let code := c.memc.scrMem
  let off := c.memc.scrOff
  let a := (memSpan code).1 + off
  let mirror := (code = 1 || code = 2) && 0x1400 ≤ off && off < 0x1800
  if !c.up (memDom a) then c.scrubNext (memSpan code).2
  else
    let c := if mirror && !c.memc.mirOpen then c else c.scrubWord a
    c.scrubNext (off + scrubUnit code)

/-! MEM registers (R487 to R489). -/

/-- A read of a MEM register. -/
def readMem (c : Chip) (m : Master) (a : Nat) : Word :=
  let h := c.memc.log.head?
  if a = Reg.memstat then c.reg a ||| pack [(6, c.memc.retAcc), (4, b2n c.memc.op.isSome)]
  else if a = Reg.loginf then
    match h with
    | none => 0
    | some e => pack [(0, e.kind), (4, e.mem), (8, e.master), (16, c.memc.log.length), (31, 1)]
  else if a = Reg.logaddr then (match h with | none => 0 | some e => word e.addr)
  else if a = Reg.logtlo then (match h with | none => 0 | some e => word e.stamp)
  else if a = Reg.logthi then c.shadow m a
  else if a = Reg.chkrd then word c.memc.chkRd
  else if a = Reg.repair then
    pack [(0, c.memc.rows.1), (8, c.memc.rows.2.1), (12, c.memc.rows.2.2.1), (16, b2n c.memc.rows.2.2.2)]
  else if a = Reg.scrpos then pack [(0, c.memc.scrOff), (24, c.memc.scrMem)]
  else if Reg.poison 0 ≤ a && a < Reg.poison 8 then word (c.memc.poison.toNat / 2 ^ (8 * (a - Reg.poison 0)))
  else if Reg.retireReg 0 ≤ a && a < Reg.retireReg 8 then
    word (c.memc.retired.toNat / 2 ^ (8 * (a - Reg.retireReg 0)))
  else c.reg a

/-- Writing ones to RETIREi retires pages, each newly retired one with event 116 (R470). -/
def Chip.retirePages (c : Chip) (i : Nat) (v : Word) : Chip :=
  (List.range 32).foldl (fun c j =>
    if v.getLsbD j && !c.memc.retired.getLsbD (32 * i + j) then
      { c with memc.retired := c.memc.retired ||| (1#256 <<< (32 * i + j)) }.raise 116 (32 * i + j)
    else c) c

/-- A write to FLCMD with its key: FLUSH, then ERASE of a sector that strands may erase (R463, R464). -/
def Chip.flashCommand (c : Chip) (v : Word) : Chip :=
  if fld v 16 16 ≠ 0xF1A5 then c else
  let c := if v.getLsbD 1 then c.flushMerge else c
  let sector := (c.reg Reg.fladdr).toNat
  if v.getLsbD 0 && settingsSpan sector && c.up .nvm then
    let c := c.finishFlash
    { c with memc.op := some (.erase sector) }
  else c

/-- A write to a MEM register. -/
def writeMem (c : Chip) (a : Nat) (v : Word) : Chip :=
  if a = Reg.logpop then (if v.getLsbD 0 then { c with memc.log := c.memc.log.tail } else c)
  else if a = Reg.flcmd then c.flashCommand v
  else if a = Reg.chkctl then
    let t := fld v 1 2
    if (t = 1 || t = 2) && (c.tile (t - 1)).ready then c.setBit Reg.memstat 5 else c.plainWrite a v
  else if Reg.poison 0 ≤ a && a < Reg.poison 8 then
    { c with memc.poison := c.memc.poison &&& ~~~(v.zeroExtend 256 <<< (8 * (a - Reg.poison 0))) }
  else if Reg.retireReg 0 ≤ a && a < Reg.retireReg 8 then c.retirePages ((a - Reg.retireReg 0) / 4) v
  else c.plainWrite a v

end Sys2Proof.Machine
end

