-- ==== Sys2Proof/Machine/Tgrid.lean ====
section
/-! DEFINITION. The time grid (R29 to R47, R52 to R54, R566): registers, sources, TSYNC and the vertex. -/

namespace Sys2Proof.Machine

/-- The chain length n of Table 1.6: the greatest NPOS of an enabled chain (R41). -/
def Chip.chainLen (c : Chip) : Nat :=
  (List.range 8).foldl (fun n i => if c.bit (Reg.chctl i) 0 then Nat.max n (c.rf (Reg.chctl i) 4 5) else n) 0

/-- The four conditions of Table 1.6 (R42). -/
def periodOk (p u ch n : Nat) : Bool :=
  1000 ≤ p && p ≤ 20000 && 180 + 40 * n ≤ u && u + 180 ≤ ch && ch + 40 + 35 * n ≤ p

/-- The installed loop program's worst case fits the compute window at the guaranteed four steps a tick (R28, R45).
A program is installed once a tile's load check has matched (log 9). -/
def Chip.wcsFits (c : Chip) (u ch : Nat) : Bool :=
  !(c.tiles.any (·.loaded)) || c.rf Reg.wcsr 0 16 ≤ 4 * (ch - u)

/-- TGCTL.PPSALIGN's condition: PERIOD divides 100 000 000 exactly (R40). -/
def alignOk (p : Nat) : Bool := p ≠ 0 && 100000000 % p = 0

/-- A write of PERCOMMIT.COMMIT (R45 to R47). -/
def Chip.commitPeriod (c : Chip) : Chip :=
  let p := c.rf Reg.period 0 15
  let u := c.rf Reg.updl 0 15
  let ch := c.rf Reg.chordr 0 15
  if c.tg.pend.isSome || !periodOk p u ch c.chainLen || !c.wcsFits u ch || (c.bit Reg.tgctl 1 && !alignOk p) then
    c.setBit Reg.tgstat 4
  else { c with tg.pend := some (p, u, ch), tg.pendIn := 2 }

/-- A write to TGCTL: a change of PPSEN to 1 waits for a first edge; PPSALIGN is refused where PERIOD does not
divide 100 000 000 (R37, R40). -/
def Chip.writeTgctl (c : Chip) (v : Word) : Chip :=
  if c.bit Reg.tglock 0 then c else
  let was := c.bit Reg.tgctl 0
  let bad := v.getLsbD 1 && !alignOk c.tg.period
  let c := c.setReg Reg.tgctl (if bad then v &&& 5 else v &&& 7)
  let c := if bad then c.setBit Reg.tgstat 4 else c
  if !was && v.getLsbD 0 then { c with tg.ppsArmed := false } else c

/-- A read of a TGRID register (Table 1.9). -/
def readTgrid (c : Chip) (m : Master) (a : Nat) : Word :=
  if a = Reg.tgstat then
    c.reg a ||| pack [(5, b2n c.tg.aligned), (3, b2n c.tg.pend.isSome), (2, b2n c.tg.ppsValid),
      (1, b2n c.tg.fallback), (0, b2n c.tg.locked)]
  else if a = Reg.ticklo then word c.tg.tick
  else if a = Reg.tickhi || a = Reg.vtxhi || a = Reg.ppshi then c.shadow m a
  else if a = Reg.period then c.reg a ||| pack [(16, c.tg.period)]
  else if a = Reg.updl then c.reg a ||| pack [(16, c.tg.updl)]
  else if a = Reg.chordr then c.reg a ||| pack [(16, c.tg.chord)]
  else if a = Reg.perseq then word c.tg.perseq
  else if a = Reg.vtxlo then word c.tg.vtx
  else if a = Reg.ppslo then word c.tg.ppsLast
  else if a = Reg.ppserr then wordI c.tg.ppsErr
  else if a = Reg.ppscnt then pack [(0, c.tg.ppsAcc), (16, c.tg.ppsRej)]
  else c.reg a

/-- A write to a TGRID register. -/
def writeTgrid (c : Chip) (a : Nat) (v : Word) : Chip :=
  if a = Reg.tgctl then c.writeTgctl v
  else if a = Reg.percommit then (if v.getLsbD 0 then c.commitPeriod else c)
  else if a = Reg.ppswin then
    (if c.bit Reg.tglock 0 then c else c.setReg a (word (clampN 100 500000 (fld v 0 20))))
  else if a = Reg.trim then
    (if c.bit Reg.tgctl 2 then c else c.setReg a (word (bitsI 16 (clampI (-1000) 1000 (sfld v 0 16)))))
  else if a = Reg.tglock then (if v.getLsbD 0 then c.setReg a 1 else c)
  else c.plainWrite a v

/-- The PLL loses lock: the grid runs from the internal oscillator (R35). -/
def Chip.pllLost (c : Chip) : Chip :=
  if !c.up .tgrid then c
  else if c.tg.locked then { c with tg.locked := false, tg.fallback := true, tg.pllReturn := false }.raise 10
  else { c with tg.pllReturn := false }

/-- The PLL has held lock for 1 ms: the grid returns to it at the next vertex (R36). -/
def Chip.pllHeld (c : Chip) : Chip :=
  if c.up .tgrid && c.tg.fallback then { c with tg.pllReturn := true } else c

/-- The offset of a tick from the nearest vertex: positive where the vertex must come later (R40; log 10). -/
def Chip.edgeOffset (c : Chip) (t : Nat) : Int :=
  let p := c.tg.period
  let d := (t - c.tg.vtx) % p
  if 2 * d ≤ p then (d : Int) else (d : Int) - p

/-- A qualified rising edge on TSYNC (R37, R38, R40). -/
def Chip.tsyncEdge (c : Chip) : Chip :=
  if !(c.up .tgrid && c.bit Reg.tgctl 0) then c else
  let t := c.tg.tick
  let exp := c.tg.ppsLast + 100000000
  let win := c.rf Reg.ppswin 0 20
  if c.tg.ppsArmed && !(exp ≤ t + win && t ≤ exp + win) then
    { c with tg.ppsRej := satAdd 0xFFFF c.tg.ppsRej 1 }.setBit Reg.tgstat 6
  else
    let off := c.edgeOffset t
    let c1 := { c with
      tg.ppsErr := if c.tg.ppsArmed then (t : Int) - exp else c.tg.ppsErr
      tg.ppsLast := t
      tg.ppsValid := true
      tg.ppsAcc := satAdd 0xFFFF c.tg.ppsAcc 1
      tg.aligned := decide (-1 ≤ off) && decide (off ≤ 1)
      tg.alignLeft := if c.bit Reg.tgctl 1 then off else 0
      tg.ppsArmed := true }
    if c.tg.ppsArmed && c.bit Reg.tgctl 2 && c1.tg.ppsErr ≠ 0 then
      (c1.setReg Reg.trim (word (bitsI 16 (clampI (-1000) 1000 c1.free.toInt)))).useFree
    else c1

/-- No edge by 100 000 000 + PPSWIN ticks after the last accepted edge (R39). -/
def Chip.ppsTimeout (c : Chip) : Chip :=
  if c.up .tgrid && c.tg.ppsValid && c.bit Reg.tgctl 0 then
    let c := c.elapseTick (c.tg.ppsLast + 100000000 + c.rf Reg.ppswin 0 20)
    { c with tg.ppsValid := false, tg.ppsArmed := false }.raise 14
  else c

/-- How much R40 lengthens or shortens the present period: at most PERIOD/100. -/
def Chip.alignStep (c : Chip) : Int :=
  if c.bit Reg.tgctl 1 then clampI (-((c.tg.period / 100 : Nat) : Int)) (c.tg.period / 100 : Nat) c.tg.alignLeft else 0

/-- The tick of the next vertex (R40, R566). -/
def Chip.nextVertex (c : Chip) : Nat := ((c.tg.vtx + c.tg.period : Nat) + c.alignStep).toNat

/-- The grid's part of a vertex: PERSEQ, the latched tick, a pending period set, and the return to the PLL (R36, R41,
R46). -/
def Chip.gridVertex (c : Chip) : Chip :=
  let v := c.nextVertex
  let c := c.elapseTick v
  let left := c.tg.alignLeft - c.alignStep
  let c := { c with tg.vtx := v, tg.perseq := (c.tg.perseq + 1) % 2 ^ 32, tg.instant := .vertex, tg.alignLeft := left }
  let c := match c.tg.pend with
    | some (p, u, ch) =>
      if c.tg.pendIn ≤ 1 then
        { c with tg.period := p, tg.updl := u, tg.chord := ch, tg.pend := none, tg.pendIn := 0 }
      else { c with tg.pendIn := c.tg.pendIn - 1 }
    | none => c
  if c.tg.pllReturn then
    { c with tg.locked := true, tg.fallback := false, tg.pllReturn := false }.raise 11
  else c

end Sys2Proof.Machine
end

