-- ==== Sys2Proof/Machine/Hub.lean ====
section
/-! DEFINITION. The hub: frames, the deadline, the chord, management, ranging, admission, isolation, breaks and folding,
and its registers (R112 to R166; log 14 to 17 for what the spec leaves open). -/

namespace Sys2Proof.Machine

/-! Tiles as the hub sees them (R567). -/

/-- HOLDCTL.HOLDREQ (R136). -/
def Chip.holdreq (c : Chip) : Bool := c.bit Reg.holdctl 0

/-- The active tile; none while FOSTATE is HOLD or HOLDREQ is 1 (R567). -/
def Chip.activeTile (c : Chip) : Option Nat :=
  if c.fo.fo == .hold || c.holdreq then none else some c.fo.act.val

/-- The reference tile (R567). -/
def Chip.refTile (c : Chip) : Nat :=
  if (c.tile 0).ready then 0
  else if (c.tile 1).ready then 1
  else if c.up .tile0 then 0 else 1

/-- The loop RAMs that the hub writes at a deadline (R567). -/
def Chip.telemetryTiles (c : Chip) : List Nat :=
  match c.activeTile with
  | some t => [t].filter fun t => c.up (tileDom t)
  | none => [0, 1].filter fun t => c.up (tileDom t)

/-! Slots and chains. -/

/-- One slot of the hub. -/
def Chip.hslot (c : Chip) (k : Nat) : HubSlot := c.hub.slots.getD k {}

/-- Change one slot. -/
def Chip.modHslot (c : Chip) (k : Nat) (f : HubSlot → HubSlot) : Chip :=
  { c with hub.slots := c.hub.slots.modify k f }

/-- One chain. -/
def Chip.chain (c : Chip) (i : Nat) : Chain := c.hub.chains.getD i {}

/-- Change one chain. -/
def Chip.modChain (c : Chip) (i : Nat) (f : Chain → Chain) : Chip :=
  { c with hub.chains := c.hub.chains.modify i f }

/-- SLOTCFGk.TYPE as the hub treats it: an AUX slot whose LOOP is 0 is EMPTY (R4, R162). -/
def Chip.slotType (c : Chip) (k : Nat) : Nat :=
  let t := c.rf (Reg.slotcfg k) 0 2
  if t = 3 && c.rf (Reg.slotcfg k) 2 2 = 0 then 0 else t

/-- The loop a slot belongs to: L0 for BRICK and RECT (R3), its loop field for AUX. -/
def Chip.slotLoop (c : Chip) (k : Nat) : Nat := if c.slotType k = 3 then c.rf (Reg.slotcfg k) 2 2 else 0

/-- SLOTCFGk.ADMEN with a type other than EMPTY (R149). -/
def Chip.takesPart (c : Chip) (k : Nat) : Bool := c.bit (Reg.slotcfg k) 4 && c.slotType k ≠ 0

/-- CHCTLc.NPOS (R164). -/
def Chip.npos (c : Chip) (i : Nat) : Nat := c.rf (Reg.chctl i) 4 5

/-- A slot's position is addressed on a chain that runs. -/
def Chip.addressed (c : Chip) (k : Nat) : Bool := (c.chain (k / 16)).en && k % 16 < c.npos (k / 16)

/-- The mode of the last record sent to a slot (R134). -/
def HubSlot.sentMode (s : HubSlot) : Nat := (s.sent.getD 0 0).toNat % 8

/-- HUBSTAT.ALLOFF: the last record sent to every slot was OFF (R51, R162). -/
def Chip.allOff (c : Chip) : Bool := c.hub.slots.all fun s => s.sentMode == 0

/-- A slot is ADMITTED. -/
def Chip.admitted (c : Chip) (k : Nat) : Bool := (c.hslot k).st == .admitted

/-- The latest accepted record showed FAULT (Table 4.5). -/
def HubSlot.fault (s : HubSlot) : Bool := s.stat.getLsbD 4

/-- The latest accepted record showed ADM (Table 4.5). -/
def HubSlot.adm (s : HubSlot) : Bool := s.stat.getLsbD 7

/-- Half A, or the whole chain from end A, reaches a position (R157). -/
def Chain.reachA (h : Chain) (p : Nat) : Bool := !h.folded || (!h.emptyA && (h.autoA || p ≤ h.tposA))

/-- Half B, or the whole chain from end B, reaches a position (R157). -/
def Chain.reachB (h : Chain) (p : Nat) : Bool := !h.folded || (!h.emptyB && (h.autoB || h.tposB ≤ p))

/-! Frames (R117 to R124). -/

/-- The context word of R124. -/
def frameCtx (i : Nat) (uplink : Bool) (perseq : Nat) : Word :=
  pack [(0, i), (3, b2n uplink), (4, perseq % 2 ^ 28)]

/-- A frame's bytes with the check appended (R14). -/
def sealed (ctx : Word) (bs : List Byte) : List Byte := bs ++ wordBytes (checkCtx ctx bs)

/-- A frame's check passes under its context. -/
def sealOk (ctx : Word) (bs : List Byte) : Bool :=
  4 ≤ bs.length && bytesVal (bs.drop (bs.length - 4)) == (checkCtx ctx (bs.take (bs.length - 4))).toNat

/-- The number that `n` bytes at an offset of a frame spell. -/
def fieldAt (bs : List Byte) (o n : Nat) : Nat := bytesVal ((bs.drop o).take n)

/-- A 10-byte uplink record (Table 4.4). -/
def parseRecord (bs : List Byte) : UpRecord :=
  { vstg := fieldAt bs 0 3, istg := signed 24 (fieldAt bs 3 3), tstg := signed 8 (fieldAt bs 6 1),
    stat := bs.getD 7 0, csub := bs.getD 8 0, pos := fieldAt bs 9 1 % 16, nseq := fieldAt bs 9 1 / 16 }

/-- The records between header and check. -/
def parseRecords (bs : List Byte) : List UpRecord :=
  (List.range ((bs.length - 8) / 10)).map fun i => parseRecord ((bs.drop (4 + 10 * i)).take 10)

/-- An uplink frame as it reached an end (R120): a frame of a length no frame has fails. -/
def parseUplink (ctx : Word) (bs : List Byte) : UpFrame :=
  let b0 := fieldAt bs 0 1
  { ok := 8 ≤ bs.length && (bs.length - 8) % 10 == 0 && sealOk ctx bs
    orig := b0 / 8 % 2 == 1
    trec := b0 / 64 % 2 == 1
    half := b0 / 16 % 4
    rpos := fieldAt bs 1 1 % 16
    rst := fieldAt bs 1 1 / 16 % 4
    rval := fieldAt bs 2 2
    recs := parseRecords bs }

/-- UPLINK_FRAME_ARRIVAL: before the deadline, at end A of a whole chain or at either end of a folded one (R131). -/
def Chip.uplinkArrives (c : Chip) (i : Nat) (e : ChainEnd) (bs : List Byte) : Chip :=
  let h := c.chain i
  let early := c.tg.instant == .vertex || c.tg.instant == .uplink
  let there := match e with | .a => h.frameA.isNone | .b => h.folded && h.frameB.isNone
  if !(c.up .hub && c.hub.running && h.en && early && there) then c else
  let f := parseUplink (frameCtx i true c.tg.perseq) bs
  c.modChain i fun h => match e with | .a => { h with frameA := some f } | .b => { h with frameB := some f }

/-- DOWNLINK_END_B_ARRIVAL: the downlink of the latest chord reached end B of a whole chain (R154). -/
def Chip.downlinkArrives (c : Chip) (i : Nat) (bs : List Byte) : Chip :=
  let h := c.chain i
  if !(c.up .hub && c.hub.running && h.dlSent && !h.folded) then c
  else c.modChain i fun h => { h with lbNow := h.lbNow || sealOk (word h.dlCtx) bs }

/-- RECEIVER_LOCK_CHANGE: a loss of lock counts in CHERR and stands until the deadline (R116, R154, R161; the span that
`lost during the period` takes: log 16). -/
def Chip.lockChange (c : Chip) (i : Nat) (e : ChainEnd) (locked : Bool) : Chip :=
  if !c.up .hub then c else
  let was := match e with | .a => (c.chain i).lockA | .b => (c.chain i).lockB
  let lost := was && !locked
  let c := if lost then c.count (Reg.cherr i) 16 16 1 else c
  c.modChain i fun h => match e with
    | .a => { h with lockA := locked, lostA := h.lostA || lost }
    | .b => { h with lockB := locked, lostB := h.lostB || lost }

/-! Ranging (R129). -/

/-- MARK_ARRIVAL: the mark arrives `ui` UI after the triggering SOF was launched. DLYE = M / 2 to the nearest, M being
`ui` − 160; a mark after 1000 ticks is none (R129). -/
def Chip.markArrives (c : Chip) (i ui : Nat) : Chip :=
  match (c.chain i).ranging with
  | some r =>
    match r.launch, r.result with
    | some t, none =>
      if !c.up .hub || 4000 < ui then c else
      (c.elapseTick (t + (ui + 3) / 4)).modChain i fun h =>
        { h with ranging := some { r with result := some ((ui - 160 + 1) / 2) } }
    | _, _ => c
  | none => c

/-- RNGERR: no mark within 1000 ticks of the launch (R129). -/
def Chip.rngerr (c : Chip) (i : Nat) : Chip :=
  match (c.chain i).ranging with
  | some r =>
    match r.launch, r.result with
    | some t, none =>
      if !c.up .hub then c else
      (c.elapseTick (t + 1000)).modChain i fun h => { h with ranging := some { r with result := some 0xFFFF } }
    | _, _ => c
  | none => c

/-- A ranging result is written to the end's field of SLOTDLY; an automatic one is owed to the node (R149). -/
def HubSlot.ranged (s : HubSlot) (endB : Bool) (dly : Nat) (auto : Bool) : HubSlot :=
  let owe := auto && dly ≠ 0xFFFF
  if endB then { s with dlyB := dly, rangedB := true, dlyWrB := owe }
  else { s with dlyA := dly, rangedA := true, dlyWrA := owe }

/-- The mailbox request ends with a result; RVAL changes only where one was read or measured (R163, log 15). -/
def Chip.mboxDone (c : Chip) (res : Nat) (rval : Option Nat) : Chip :=
  { c with hub.mboxBusy := false, hub.mboxSent := false, hub.mboxRes := res,
           hub.mboxRval := rval.getD c.hub.mboxRval }

/-- A ranging's result, RNGERR once 1000 ticks have passed since the launch without one (R129). -/
def Chip.rangingResult (c : Chip) (r : Ranging) : Option Nat :=
  match r.result, r.launch with
  | some d, _ => some d
  | none, some t => if t + 1000 < c.tg.tick then some 0xFFFF else none
  | none, none => none

/-- A ranging whose result is known ends at the deadline (R129, R149, R163). -/
def Chip.rangingDeadline (c : Chip) (i : Nat) : Chip :=
  match (c.chain i).ranging with
  | some r =>
    match c.rangingResult r with
    | some d =>
      let c := c.modHslot (16 * i + r.pos) fun s => s.ranged r.endB d r.auto
      let c := c.modChain i fun h => { h with ranging := none }
      if r.auto then c else c.mboxDone (if d = 0xFFFF then 4 else 0) (some d)
    | none => c
  | none => c

/-! Admission (R148 to R152). -/

/-- The slot starts admission again from PRESENT; without automatic admission its NID reads 0, with it the NID stands
until it is read again (R149, R152, log 15). -/
def HubSlot.present (s : HubSlot) (auto : Bool) : HubSlot :=
  { s with st := .present, nid := if auto then s.nid else 0, cap := none, nidRead := false, rangedA := false, rangedB := false,
           dlyWrA := false, dlyWrB := false, release := false }

/-- HUBCFG.AUTOADM. -/
def Chip.autoAdm (c : Chip) : Bool := c.bit Reg.hubcfg 9

/-- The slots that count against the fused limit: admitted, isolated for a time or not (R149, Table 10.6; log 17). -/
def Chip.admittedCount (c : Chip) : Nat :=
  (c.hub.slots.filter fun s => s.st == .admitted || s.st == .isolated).length

/-- The slot is REFUSED: nothing is owed to its node but its release (R149). -/
def HubSlot.refuse (s : HubSlot) (release : Bool) : HubSlot :=
  { s with st := .refused, release := release, dlyWrA := false, dlyWrB := false }

/-- RANGED to ADMITTED, or REFUSED at the fused slot-count limit (R149). -/
def Chip.admitSlot (c : Chip) (k : Nat) : Chip :=
  if c.fnslot ≤ c.admittedCount then
    (c.setBit Reg.hubstat 6).modHslot k fun s => s.refuse c.autoAdm
  else c.modHslot k fun s => { s with st := .admitted, silent := false }

/-- CAP's stage type or strapped position differs from the slot's (R149): stage types 0, 1, 2 are slot types 1, 2, 3. -/
def Chip.mismatch (c : Chip) (k cap : Nat) : Bool := cap % 4 + 1 ≠ c.slotType k || cap / 1024 % 16 ≠ k % 16

/-- The reply to an automatic step (R149). -/
def Chip.autoReply (c : Chip) (k : Nat) (r : MgmtReq) (rval : Nat) (done : Bool) : Chip :=
  if r.op = 2 then
    if r.reg = 2 then c.modHslot k fun s => { s with dlyWrA := false }
    else if r.reg = 3 then c.modHslot k fun s => { s with dlyWrB := false }
    else c.modHslot k fun s => { s with release := false }
  else if r.op ≠ 1 || !done then c
  else if r.reg = 0 then c.modHslot k fun s => { s with nid := rval, nidRead := true }
  else
    let c := c.modHslot k fun s => { s with cap := some rval }
    if (c.hslot k).st == .present && c.mismatch k rval then
      ((c.setBit (Reg.slotstat k) 8).raise 33 k).modHslot k fun s => s.refuse s.adm
    else c

/-- The reply, or its absence, to the chain's management request of the previous chord (R120, R144, R149, R163). -/
def Chip.replyDeadline (c : Chip) (i : Nat) : Chip :=
  let h := c.chain i
  match h.req with
  | none => c
  | some r =>
    let k := 16 * i + r.pos
    let frames := (h.frameA.toList ++ h.frameB.toList).filter fun f => f.ok && f.rst ≠ 0 && f.rpos == r.pos
    let c := c.modChain i fun h => { h with req := none }
    match frames.head?, r.auto with
    | none, true => c
    | none, false => if r.op = 3 then c else c.mboxDone 1 none
    | some f, true => if r.op = 3 then c else c.autoReply k r f.rval (f.rst = 1)
    | some f, false =>
      if r.op = 3 then c else
      let c := if f.rst = 1 then c.mboxDone 0 (some f.rval) else c.mboxDone 2 none
      if r.op = 2 && r.reg = 4 && r.val = 0xAD01 && f.rst = 1 && (c.hslot k).st == .ranged then c.admitSlot k
      else c

/-- PRESENT to RANGED, and on to ADMITTED where the node's accepted record shows ADM (R149). -/
def Chip.admissionStep (c : Chip) (k : Nat) : Chip :=
  let h := c.chain (k / 16)
  let s := c.hslot k
  let a := h.reachA (k % 16)
  let b := h.reachB (k % 16)
  let ready := s.st == .present && c.takesPart k && (a || b) && (!a || s.rangedA) && (!b || s.rangedB) &&
    (!c.autoAdm || s.cap.isSome)
  let c := if ready then c.modHslot k fun s => { s with st := .ranged } else c
  if (c.hslot k).st == .ranged && s.fresh && s.adm then c.admitSlot k else c

/-! The uplink deadline (R130 to R132, R150 to R157). -/

/-- The candidates of one frame for a position: its accepted record, whether one failed on NSEQ alone, and whether two
share the position (R131). -/
def UpFrame.pick (f : UpFrame) (p perseq : Nat) : Option UpRecord × Bool × Bool :=
  match f.recs.filter fun r => r.pos == p with
  | [] => (none, false, false)
  | [r] => if r.nseq = perseq % 16 then (some r, false, false) else (none, true, false)
  | _ => (none, false, true)

/-- The cell report after this period's record, or none (R132): CELL and CELLNEW at phase 3 of four consecutive
periods. -/
def HubSlot.cellStep (s : HubSlot) (r : Option UpRecord) : HubSlot :=
  let s := { s with cellNew := false }
  match r with
  | none => { s with cellAsm := [] }
  | some r =>
    let ph := r.nseq % 4
    if ph ≠ s.cellAsm.length && ph ≠ 0 then { s with cellAsm := [] }
    else
      let asm := if ph = 0 then [r.csub] else s.cellAsm ++ [r.csub]
      if ph = 3 then { s with cellAsm := [], cell := word (bytesVal asm), cellNew := true }
      else { s with cellAsm := asm }

/-- The slot's values after this deadline (R131). -/
def HubSlot.accept (s : HubSlot) (r : Option UpRecord) (seqErr : Bool) : HubSlot :=
  let s := { s with seqErr := seqErr }.cellStep r
  match r with
  | some r =>
    { s with vstg := r.vstg, istg := r.istg, tstg := r.tstg, stat := r.stat, fresh := true, age := 0, silent := false }
  | none => { s with fresh := false, age := Nat.min 15 (s.age + 1) }

/-- HUBCFG.SILENT, 0 read as 1. -/
def Chip.silentLimit (c : Chip) : Nat := orOne (c.rf Reg.hubcfg 0 4)

/-- SLOTISO bit of a slot (R151). -/
def Chip.slotIso (c : Chip) (k : Nat) : Bool := c.bit (Reg.slotiso (k / 32)) (k % 32)

/-- Silence, return to PRESENT, isolation and re-admission of one slot, in this order (R150 to R152). -/
def Chip.slotStates (c : Chip) (k : Nat) : Chip :=
  let s := c.hslot k
  let c := if s.st == .admitted && !s.fresh && c.silentLimit ≤ s.age && !s.silent then
      (c.modHslot k fun s => { s with silent := true }).raise 32 k else c
  if s.fresh && !s.adm && (s.st == .admitted || s.st == .isolated) then
    (c.modHslot k fun s => s.present c.autoAdm).raise 33 k
  else if s.st == .admitted && (c.slotIso k || (s.fresh && s.fault)) then
    ((c.modHslot k fun s => { s with st := .isolated }).raiseIf (s.fresh && s.fault) 33 k).raise 34 k
  else if s.st == .isolated && !c.slotIso k && s.fresh && !s.fault && s.adm then
    (c.modHslot k fun s => { s with st := .admitted }).raise 35 k
  else if s.st == .absent && s.fresh && c.takesPart k then c.modHslot k fun s => s.present c.autoAdm
  else c

/-- Acceptance of the records of one addressed slot, half A first (R131). -/
def Chip.slotAccept (c : Chip) (k : Nat) : Chip :=
  let h := c.chain (k / 16)
  let pick (f : Option UpFrame) := match f with
    | some f => if f.ok then f.pick (k % 16) c.tg.perseq else (none, false, false)
    | none => (none, false, false)
  let a := pick h.frameA
  let b := if h.folded then pick h.frameB else (none, false, false)
  let c := c.modHslot k fun s => s.accept (a.1 <|> b.1) (a.2.1 || b.2.1)
  if a.2.2 || b.2.2 then (c.setBit (Reg.chstat (k / 16)) 15).raise 33 k else c

/-- HFLG of a slot (Table 4.8). -/
def Chip.hflg (c : Chip) (k : Nat) : Nat :=
  let s := c.hslot k
  b2n s.fresh + 2 * b2n s.seqErr + 4 * b2n s.cellNew + 8 * b2n (s.st == .admitted) + 16 * s.age

/-- Write the telemetry entry of an addressed slot into a tile's loop RAM; of another, HFLG.ADMT alone (R130). -/
def Chip.writeEntry (c : Chip) (t k : Nat) : Chip :=
  let a := loopRam t + 16 * k
  let s := c.hslot k
  if c.addressed k then
    c.putBytes a (s.vstg + 2 ^ 32 * bitsI 32 s.istg + 2 ^ 64 * bitsI 16 (s.tstg * 64) + 2 ^ 80 * s.stat.toNat +
      2 ^ 88 * c.hflg k + 2 ^ 96 * s.cell.toNat) 16
  else
    let old := (c.byte (a + 11)).toNat
    c.putByte (a + 11) (BitVec.ofNat 8 (old - 8 * (old / 8 % 2) + 8 * b2n (s.st == .admitted)))

/-- ARRLO: chains whose uplink, or a half's, passed, and chains that are folded (R24). -/
def Chip.arrlo (c : Chip) : Word :=
  pack ((List.range 8).map fun i => (i, b2n ((c.chain i).arrA || (c.chain i).arrB))) |||
    pack ((List.range 8).map fun i => (8 + i, b2n (c.chain i).folded))

/-- The period header in a tile's loop RAM (Table 1.3). -/
def Chip.writeHeader (c : Chip) (t : Nat) : Chip :=
  let ws := [c.tg.perseq, c.tg.vtx, c.tg.vtx / 2 ^ 32, c.tg.period, c.tg.updl, c.tg.chord, c.arrlo.toNat, c.tg.perseq]
  (ws.mapIdx fun i w => (i, w)).foldl (fun c (p : Nat × Nat) => c.putBytes (loopRam t + 0x1C00 + 4 * p.1) p.2 4) c

/-- A half of a folded chain at the deadline: what it yielded, and a further break (R157, R159). -/
def Chip.halfDeadline (c : Chip) (i : Nat) (endB : Bool) : Chip :=
  let h := c.chain i
  let f := if endB then h.frameB else h.frameA
  let pass := match f with | some f => f.ok | none => false
  let lost := if endB then h.losB else h.losA
  let turn : Option Nat := match f with
    | some f => if f.ok && f.orig && f.trec then (f.recs.head?).map (·.pos) else none
    | none => none
  let brk := !pass && (lost || f.isNone) && (if endB then h.yieldB else h.yieldA)
  let c := c.modChain i fun h =>
    if endB then
      { h with emptyB := !pass, yieldB := (h.yieldB || pass) && !brk, rebrkB := h.rebrkB || brk,
               tposB := if h.autoB then turn.getD h.tposB else h.tposB, autoB := h.autoB && turn.isNone }
    else
      { h with emptyA := !pass, yieldA := (h.yieldA || pass) && !brk, rebrkA := h.rebrkA || brk,
               tposA := if h.autoA then turn.getD h.tposA else h.tposA, autoA := h.autoA && turn.isNone }
  if brk then c.setBit (Reg.chstat i) 20 else c

/-- A whole chain at the deadline: the break conditions of R154 and their outcome. -/
def Chip.wholeDeadline (c : Chip) (i : Nat) : Chip :=
  let h := c.chain i
  let cond := h.losA || h.losB || h.frameA.isNone || (h.dlSent && !h.lbok)
  if !cond then c.modChain i fun h => { h with brkStand := false } else
  let fold := c.bit Reg.hubcfg 8
  let c := (c.setBit (Reg.chstat i) 20).raiseIf (fold || !h.brkStand) (24 + i) i
  c.modChain i fun h =>
    if fold then
      { h with folded := true, autoA := true, autoB := true, yieldA := false, yieldB := false, rebrkA := false,
               rebrkB := false, emptyA := false, emptyB := false, brkStand := false }
    else { h with brkStand := true }

/-- The uplinks of the period whose check failed count in CHERR, and raise event 16 + c (R154, log 16). -/
def Chip.checkFailures (c : Chip) (i : Nat) : Chip :=
  let h := c.chain i
  let n := ((h.frameA.toList ++ h.frameB.toList).filter fun f => !f.ok).length
  if n = 0 then c else (c.count (Reg.cherr i) 0 16 n).raise (16 + i) i

/-- A chain at the deadline: check failures, what CHSTAT latches, then breaks; a receiver that is out of lock counts as
one that lost it (R154, R165, log 16). -/
def Chip.chainDeadline (c : Chip) (i : Nat) : Chip :=
  let ok (f : Option UpFrame) := match f with | some f => f.ok | none => false
  let c := (c.checkFailures i).modChain i fun h =>
    { h with losA := h.lostA || !h.lockA, losB := h.lostB || !h.lockB, lostA := false, lostB := false, arrA := ok h.frameA,
             arrB := h.folded && ok h.frameB, lbok := !h.folded && h.lbNow }
  let h := c.chain i
  if !h.en then c
  else if h.folded then (if h.dlSent then (c.halfDeadline i false).halfDeadline i true else c)
  else c.wholeDeadline i

/-- All slots. -/
def allSlots : List Nat := List.range 128

/-- The hub's part of an uplink deadline. -/
def Chip.hubDeadline (c : Chip) : Chip :=
  if !(c.up .hub && c.hub.running) then
    if c.up .hub then { c with hub.slots := c.hub.slots.map fun s => { s with fresh := false } } else c
  else
  let c := allSlots.foldl (fun c k =>
    if c.addressed k then (c.slotAccept k).slotStates k else c.modHslot k fun s => { s with fresh := false }) c
  let c := (List.range 8).foldl (fun c i => ((c.rangingDeadline i).replyDeadline i).chainDeadline i) c
  let c := allSlots.foldl (fun c k => if c.addressed k then c.admissionStep k else c) c
  let c := c.telemetryTiles.foldl (fun c t => (allSlots.foldl (fun c k => c.writeEntry t k) c).writeHeader t) c
  { c with hub.chains := c.hub.chains.map fun h => { h with frameA := none, frameB := none } }

/-! The chord (R134 to R136, R139, R155, R160, R163). -/

/-- Where the chord's records come from (Table 4.9, rows 2 to 4). -/
inductive Source where
  | holdover
  | hold
  | tile (t : Nat)
  deriving DecidableEq, Repr

/-- The record OFF of row 1. -/
def offRecord : List Byte := [0, 0, 0, 0, 0, 0]

/-- A record with MODE = HOLDOVER where it was RUN or BRAKE (row 2). -/
def holdoverRecord (r : List Byte) : List Byte :=
  let b := (r.getD 0 0).toNat
  if b % 8 = 1 || b % 8 = 2 then BitVec.ofNat 8 (b / 8 * 8 + 4) :: r.tail else r

/-- The current reference of a record, where DUTY is 0 (Table 4.3). -/
def recordRef (r : List Byte) : Option Int :=
  if (r.getD 0 0).getLsbD 3 then none else some (signed 24 (fieldAt r 1 3))

/-- A record with its current reference clamped to the fused per-slot maximum, and whether it was (R134). -/
def Chip.clampRecord (c : Chip) (r : List Byte) : List Byte × Bool :=
  match recordRef r with
  | none => (r, false)
  | some i =>
    let m : Int := c.fmax
    if -m ≤ i && i ≤ m then (r, false)
    else ([r.getD 0 0] ++ natBytes 3 (bitsI 24 (if i < 0 then -m else m)) ++ r.drop 4, true)

/-- The address of a slot's command entry (R133). -/
def cmdAddr (t k : Nat) : Nat := loopRam t + 0x800 + 8 * k

/-- A slot's record comes from row 1 of Table 4.9. -/
def Chip.rowOff (c : Chip) (k : Nat) : Bool := c.slotType k = 0 || !c.admitted k

/-- The record for a slot at the chord (Table 4.9), and whether it was clamped. -/
def Chip.recordFor (c : Chip) (src : Source) (k : Nat) : List Byte × Bool :=
  let last := (c.hslot k).sent
  if c.rowOff k then (offRecord, false) else
  match src with
  | .holdover => c.clampRecord (holdoverRecord last)
  | .hold => c.clampRecord last
  | .tile t => c.clampRecord (c.byteList (cmdAddr t k) 6)

/-- A command entry that the chord would read has bad parity: the period counts as an overrun, with event 112 from
source 10 (R435). -/
def Chip.chordSource (c : Chip) (src : Source) : Source × Chip :=
  match src with
  | .tile t =>
    match allSlots.find? fun k => c.addressed k && !c.rowOff k && c.parityBad (cmdAddr t k) 6 with
    | some k => (.hold, c.parityError .hub (cmdAddr t k))
    | none => (src, c)
  | _ => (src, c)

/-- The hub builds and keeps every addressed slot's record; a clamp sets LIMCLAMP and raises event 63 once (R134). -/
def Chip.buildRecords (c : Chip) (src : Source) : Chip :=
  let c0 := c
  let ks := allSlots.filter c0.addressed
  let clamped := ks.any fun k => (c0.recordFor src k).2
  let c := ks.foldl (fun c k => c.modHslot k fun s => { s with sent := (c0.recordFor src k).1 }) c
  let c := if clamped then (c.setBit Reg.hubstat 5).raise 63 else c
  { c with hub.holding := src == .hold, hub.holdovf := src == .holdover }

/-- R139: the chord of a SYNC frame on a chain. -/
def Chip.syncChord (c : Chip) (i : Nat) : Bool :=
  c.tg.perseq % 256 = 0 || (c.tg.perseq % 16 = 0 &&
    (List.range 16).any fun p => c.bit (Reg.slotcfg (16 * i + p)) 4 && !(c.hslot (16 * i + p)).fresh)

/-- The conditions of an unfold (R160). -/
def Chip.unfoldOk (c : Chip) (i : Nat) : Bool :=
  let h := c.chain i
  let link (p : Nat) := (c.hslot (16 * i + p)).stat.getLsbD 6
  !h.autoA && !h.autoB && !h.emptyA && !h.emptyB && link h.tposA && link h.tposB &&
    (List.range 16).all fun p =>
      let s := c.hslot (16 * i + p)
      s.st ≠ .admitted || (s.dlyA ≠ 0xFFFF && s.dlyB ≠ 0xFFFF)

/-- A fold request is carried out or refused at the chord (R160). -/
def Chip.foldChord (c : Chip) (i : Nat) : Chip :=
  let h := c.chain i
  let c := c.modChain i fun h => { h with foldReq := none }
  match h.foldReq with
  | none => c
  | some .unfold =>
    if !h.folded then c
    else if c.unfoldOk i then
      (c.modChain i fun h => { h with folded := false, dlSent := false, brkStand := false }).raise (24 + i) i
    else c.setBit (Reg.chstat i) 14
  | some (.fold t) =>
    if h.folded then c else
    (c.modChain i fun h =>
      { h with folded := true, tposA := t, tposB := t + 1, autoA := false, autoB := false, emptyA := false,
               emptyB := false, yieldA := true, yieldB := true, rebrkA := false, rebrkB := false,
               dlSent := false }).raise (24 + i) i

/-- A half declared broken again returns to AUTO = 1 at the chord, with event 24 + c (R159). -/
def Chip.rebreakChord (c : Chip) (i : Nat) : Chip :=
  let h := c.chain i
  let c := (c.raiseIf h.rebrkA (24 + i) i).raiseIf h.rebrkB (24 + i) i
  c.modChain i fun h =>
    { h with autoA := h.autoA || h.rebrkA, autoB := h.autoB || h.rebrkB, rebrkA := false, rebrkB := false }

/-- The automatic step that one slot waits for (R149); its node must have been heard at this deadline (log 15). -/
def Chip.autoStepOf (c : Chip) (i p : Nat) : Option MgmtReq :=
  let k := 16 * i + p
  let s := c.hslot k
  let h := c.chain i
  let req (op reg val : Nat) : Option MgmtReq := some { pos := p, op := op, reg := reg, val := val, auto := true }
  let present := s.st == .present && c.takesPart k
  if !s.fresh || !c.addressed k then none
  else if s.release then req 2 4 0
  else if present && !s.nidRead then req 1 0 0
  else if present && s.cap.isNone then req 1 1 0
  else if present && h.reachA p && !s.rangedA then req 3 0 0
  else if s.dlyWrA then req 2 2 s.dlyA
  else if present && h.reachB p && !s.rangedB then req 3 0 1
  else if s.dlyWrB then req 2 3 s.dlyB
  else none

/-- The chain's automatic step at this chord: one at a time, and none while an automatic ranging runs (R149, log 15). -/
def Chip.autoStep (c : Chip) (i : Nat) : Option MgmtReq :=
  if !c.autoAdm || (c.chain i).ranging.isSome then none
  else (List.range 16).findSome? fun p => c.autoStepOf i p

/-- The mailbox request, if it goes out on this chain at this chord (R163). -/
def Chip.mboxStep (c : Chip) (i : Nat) : Option MgmtReq :=
  let op := c.rf Reg.mboxctl 8 3
  if !c.hub.mboxBusy || c.hub.mboxSent || c.rf Reg.mboxctl 4 3 ≠ i then none
  else if 2 ≤ op && (c.chain i).ranging.isSome then none
  else some { pos := c.rf Reg.mboxctl 0 4, op := if op = 0 then 1 else if op = 1 then 2 else 3,
              reg := if op < 2 then c.rf Reg.mboxctl 16 8 else 0,
              val := if op = 1 then c.rf Reg.mboxdata 0 16 else if op = 3 then 1 else 0, auto := false }

/-- The management request of a chain's downlink (R139, R149, R163). -/
def Chip.chainRequest (c : Chip) (i : Nat) (sync : Bool) : Option MgmtReq :=
  if sync then none else c.autoStep i <|> c.mboxStep i

/-- A request goes out: a ranging is in hand from now, a mailbox request waits for its answer. -/
def Chip.sendRequest (c : Chip) (i : Nat) (r : Option MgmtReq) : Chip :=
  match r with
  | none => c
  | some r =>
    let c := if r.auto then c else { c with hub.mboxSent := true }
    c.modChain i fun h =>
      { h with req := some r,
               ranging := if r.op = 3 then some { pos := r.pos, endB := r.val = 1, auto := r.auto } else h.ranging }

/-- A ranging asked for at an earlier chord is launched by this chord's downlink: from end A, or from the end of a folded
half (R129). -/
def Chip.launchAtChord (c : Chip) (i : Nat) : Chip :=
  let h := c.chain i
  match h.ranging with
  | some r =>
    if r.launch.isNone && (!r.endB || h.folded) then
      c.modChain i fun h => { h with ranging := some { r with launch := some (c.tg.vtx + c.tg.chord + 2) } }
    else c
  | none => c

/-- The 8 header bytes of a downlink (Table 4.2). -/
def Chip.dlHeader (c : Chip) (i : Nat) (hold sync : Bool) (half tpos : Nat) (auto : Bool) (r : Option MgmtReq) :
    List Byte :=
  let vto := c.nextVertex - (c.tg.vtx + c.tg.chord + 2)
  let b0 := i + 8 * b2n hold + 16 * b2n sync + 32 * half
  let b1 := (if auto then 0 else tpos) + 16 * b2n auto
  natBytes 1 b0 ++ natBytes 1 b1 ++ natBytes 2 vto ++
    (if sync then natBytes 4 c.tg.perseq else
      match r with
      | some r => natBytes 1 (r.pos + 16 * r.op) ++ natBytes 1 r.reg ++ natBytes 2 r.val
      | none => natBytes 4 0)

/-- The record bytes of positions, in the order given: position byte and command bytes (R117). -/
def Chip.dlRecords (c : Chip) (i : Nat) (ps : List Nat) : List Byte :=
  ps.foldr (fun p l => (BitVec.ofNat 8 p :: (c.hslot (16 * i + p)).sent) ++ l) []

/-- The downlink frames of a chain at this chord (R117, R155, R157). -/
def Chip.downlinks (c : Chip) (i : Nat) (hold sync : Bool) (r : Option MgmtReq) : List SentFrame :=
  let h := c.chain i
  let ctx := frameCtx i false (if sync then 0 else c.tg.perseq)
  let ps := List.range (c.npos i)
  let frame (endB : Bool) (half tpos : Nat) (auto : Bool) (ps : List Nat) : SentFrame :=
    { chain := i, endB := endB,
      bytes := sealed ctx (c.dlHeader i hold sync half tpos auto r ++ c.dlRecords i ps) }
  if h.folded then
    [frame false 1 h.tposA h.autoA (if h.autoA then ps else ps.filter (· ≤ h.tposA)),
     frame true 2 h.tposB h.autoB (if h.autoB then ps.reverse else (ps.filter (h.tposB ≤ ·)).reverse)]
  else [frame false 0 0 false ps]

/-- One chain at the chord. -/
def Chip.chainChord (c : Chip) (i : Nat) (hold : Bool) : Chip :=
  if !(c.chain i).en then c else
  let c := ((c.foldChord i).rebreakChord i).launchAtChord i
  let sync := c.syncChord i
  let r := c.chainRequest i sync
  let c := c.sendRequest i r
  let out := c.downlinks i hold sync r
  let c := { c with hub.sentOut := c.hub.sentOut ++ out }
  c.modChain i fun h =>
    { h with dlSent := true, lbNow := false,
             dlCtx := (frameCtx i false (if sync then 0 else c.tg.perseq)).toNat }

/-- A mailbox request whose chain was disabled or shortened under it ends: unreachable, or without a reply (R163;
log 15). -/
def Chip.mboxOrphan (c : Chip) : Chip :=
  let i := c.rf Reg.mboxctl 4 3
  if c.hub.mboxBusy && (!c.bit (Reg.chctl i) 0 || c.npos i ≤ c.rf Reg.mboxctl 0 4) then
    let sent := c.hub.mboxSent
    (c.modChain i fun h => { h with req := none, ranging := none }).mboxDone (if sent then 1 else 3) none
  else c

/-- The hub's part of a chord: the source as the failover controller decides it, the records, the frames. It answers the
source in effect. -/
def Chip.hubChord (c : Chip) (src : Source) : Source × Chip :=
  if !(c.up .hub && c.hub.running) then (src, c) else
  let (src, c) := c.chordSource src
  let c := { (c.mboxOrphan.buildRecords src) with hub.sentOut := [] }
  (src, (List.range 8).foldl (fun c i => c.chainChord i (src == .hold)) c)

/-! Uplink start and vertex. -/

/-- UPLINK_START of a whole chain: the hub originates the uplink at end B with no records, and it launches a ranging
from end B (R120, R129). -/
def Chip.chainUplink (c : Chip) (i : Nat) : Chip :=
  let h := c.chain i
  if !h.en || h.folded then c else
  let bs := sealed (frameCtx i true c.tg.perseq) (natBytes 4 (i + 128))
  let c := { c with hub.sentOut := c.hub.sentOut ++ [{ chain := i, endB := true, bytes := bs }] }
  match h.ranging with
  | some r =>
    if r.launch.isNone && r.endB then
      c.modChain i fun h => { h with ranging := some { r with launch := some (c.tg.vtx + 150) } }
    else c
  | none => c

/-- The hub's part of an uplink start. -/
def Chip.hubUplink (c : Chip) : Chip :=
  if !(c.up .hub && c.hub.running) then c
  else (List.range 8).foldl Chip.chainUplink { c with hub.sentOut := [] }

/-- The hub's part of a vertex: EN of the hub and of its chains takes effect (R161, R164; EN written 0: log 14). A chain
that stops forgets what it was waiting for. -/
def Chip.hubVertex (c : Chip) : Chip :=
  if !c.up .hub then c else
  let run := c.bit Reg.hubctl 0
  let ens := (List.range 8).map fun i => run && c.bit (Reg.chctl i) 0
  { c with hub.running := run,
           hub.chains := c.hub.chains.mapIdx fun i h =>
             let on := ens.getD i false
             if on then { h with en := true, frameA := none, frameB := none }
             else { h with en := false, dlSent := false, frameA := none, frameB := none, arrA := false, arrB := false,
                           lbok := false, brkStand := false } }

/-! HUB registers (R161 to R166). -/

/-- The code of a slot state (Table 4.18). -/
def SlotState.code : SlotState → Nat
  | .absent => 0 | .present => 1 | .ranged => 2 | .admitted => 3 | .isolated => 4 | .refused => 5

/-- AUTOT (R157). -/
def Chain.autoT (h : Chain) : Bool := h.folded && ((h.autoA && !h.emptyA) || (h.autoB && !h.emptyB))

/-- A read of a HUB register. -/
def readHub (c : Chip) (a : Nat) : Word :=
  let i4 (base : Nat) := (a - base) / 4
  if a = Reg.hubstat then
    c.reg a ||| pack [(3, b2n c.hub.holdovf), (2, b2n c.hub.holding), (1, b2n c.allOff), (0, b2n c.hub.running)]
  else if a = Reg.mboxctl then c.reg a ||| pack [(25, c.hub.mboxRes), (24, b2n c.hub.mboxBusy)]
  else if a = Reg.mboxdata then c.reg a ||| pack [(16, c.hub.mboxRval)]
  else if Reg.admitted 0 ≤ a && a < Reg.admitted 4 then maskWord fun j => c.admitted (32 * i4 (Reg.admitted 0) + j)
  else if Reg.fresh 0 ≤ a && a < Reg.fresh 4 then maskWord fun j => (c.hslot (32 * i4 (Reg.fresh 0) + j)).fresh
  else if Reg.chctl 0 ≤ a && a < Reg.chctl 8 then
    c.reg a ||| pack [(1, b2n (c.chain (i4 (Reg.chctl 0))).folded)]
  else if Reg.chstat 0 ≤ a && a < Reg.chstat 8 then
    let h := c.chain (i4 (Reg.chstat 0))
    c.reg a ||| pack [(19, b2n h.arrB), (18, b2n h.arrA), (17, b2n h.lbok), (13, b2n h.emptyB), (12, b2n h.emptyA),
      (8, h.tposB % 16), (4, h.tposA % 16), (3, b2n h.autoT), (2, b2n h.folded), (1, b2n h.losB), (0, b2n h.losA)]
  else if Reg.slotstat 0 ≤ a && a < Reg.slotstat 128 then
    let s := c.hslot (i4 (Reg.slotstat 0))
    c.reg a ||| pack [(16, s.nid), (7, b2n s.fault), (6, b2n s.silent), (3, s.stat.toNat % 8), (0, s.st.code)]
  else if Reg.slotdly 0 ≤ a && a < Reg.slotdly 128 then
    let s := c.hslot (i4 (Reg.slotdly 0))
    pack [(0, s.dlyA), (16, s.dlyB)]
  else c.reg a

/-- The chain length if chain `i` had this control word (R41, R44). -/
def Chip.chainLenWith (c : Chip) (i : Nat) (v : Word) : Nat := (c.setReg (Reg.chctl i) v).chainLen

/-- R44: the values in force, and the set that waits, hold for chain length `n`. -/
def Chip.lenOk (c : Chip) (n : Nat) : Bool :=
  periodOk c.tg.period c.tg.updl c.tg.chord n &&
    match c.tg.pend with
    | some (p, u, ch) => periodOk p u ch n
    | none => true

/-- A write to CHCTLc (R44, R160, R164): refused as a whole, or stored, with a fold request where FOLD differs. -/
def Chip.writeChctl (c : Chip) (i : Nat) (v : Word) : Chip :=
  let old := c.npos i
  let n := fld v 4 5
  let leaves := (List.range 16).any fun p => n ≤ p && p < old && (c.hslot (16 * i + p)).sentMode ≠ 0
  let new := c.chainLenWith i (v &&& 0xF1F1)
  if 16 < n || fld v 12 4 = 15 || leaves then c.setBit (Reg.chstat i) 16
  else if new ≠ c.chainLen && !c.lenOk new then
    let c := c.setBit Reg.tgstat 4
    if n ≠ old then c.setBit (Reg.chstat i) 16 else c
  else
    let folded := (c.chain i).folded
    let c := c.setReg (Reg.chctl i) (v &&& 0xF1F1)
    if v.getLsbD 1 && !folded then c.modChain i fun h => { h with foldReq := some (.fold (fld v 12 4)) }
    else if !v.getLsbD 1 && folded then c.modChain i fun h => { h with foldReq := some .unfold }
    else c

/-- A write to SLOTCFGk (R153). -/
def Chip.writeSlotcfg (c : Chip) (k : Nat) (v : Word) : Chip :=
  let old := c.reg (Reg.slotcfg k)
  let moved := fld v 0 4 ≠ fld old 0 4
  if moved && (c.hslot k).sentMode ≠ 0 then c.setBit Reg.hubstat 4
  else
    let c := c.plainWrite (Reg.slotcfg k) v
    if fld v 0 2 ≠ fld old 0 2 then
      c.modHslot k fun s => { (s.present false) with st := .absent, silent := false }
    else c

/-- A write to MBOXCTL (R163). -/
def Chip.writeMbox (c : Chip) (v : Word) : Chip :=
  if c.hub.mboxBusy then c else
  let c := c.plainWrite Reg.mboxctl v
  let i := fld v 4 3
  if !v.getLsbD 24 then c
  else if 4 ≤ fld v 8 3 then c.mboxDone 2 none
  else if !c.bit (Reg.chctl i) 0 || c.npos i ≤ fld v 0 4 then c.mboxDone 3 none
  else { c with hub.mboxBusy := true, hub.mboxSent := false }

/-- A write to a HUB register. -/
def writeHub (c : Chip) (a : Nat) (v : Word) : Chip :=
  if a = Reg.hubctl then
    (if !v.getLsbD 0 && !c.allOff then c.setBit Reg.hubstat 4 else c.plainWrite a v)
  else if a = Reg.mboxctl then c.writeMbox v
  else if Reg.chctl 0 ≤ a && a < Reg.chctl 8 then c.writeChctl ((a - Reg.chctl 0) / 4) v
  else if Reg.slotcfg 0 ≤ a && a < Reg.slotcfg 128 then c.writeSlotcfg ((a - Reg.slotcfg 0) / 4) v
  else c.plainWrite a v

end Sys2Proof.Machine
end

