-- ==== Sys2Proof/Machine/Therm.lean ====
section
/-! DEFINITION. THERM: sources, the model, warning and derate, rate of rise, the die and the bands (R352 to R368). -/

namespace Sys2Proof.Machine

/-- One slot of THERM. -/
def Chip.tslotSt (c : Chip) (k : Nat) : ThermSlot := c.therm.slots.getD k {}

/-- Change one slot of THERM. -/
def Chip.modTherm (c : Chip) (k : Nat) (f : ThermSlot → ThermSlot) : Chip :=
  { c with therm.slots := c.therm.slots.modify k f }

/-- A byte of a register, unsigned. -/
def byteOf (w : Word) (i : Nat) : Nat := fld w (8 * i) 8

/-- A byte of a register, signed. -/
def sbyte (w : Word) (i : Nat) : Int := sfld w (8 * i) 8

/-- The exact value where it fits `len` signed bits; the spec gives no result outside the format: then a free value
(log 4). -/
def Chip.fitted (c : Chip) (len : Nat) (x : Int) : Int :=
  if -(2 ^ (len - 1)) ≤ x && x < 2 ^ (len - 1) then x else c.free.toInt

/-! Bands (R363). -/

/-- The band after an update from `x`, in 1/64 °C, with thresholds and hysteresis of a threshold word (R363). -/
def bandStep (th : Word) (x : Int) (band : Nat) : Nat :=
  let n (hy : Int) := ((List.range 3).filter fun i => (sbyte th i - hy) * 64 ≤ x).length
  let up := n 0
  let dn := n (byteOf th 3)
  if band < up then up else if dn < band then dn else band

/-- Three signed thresholds strictly increase. -/
def rising3 (w : Word) : Bool := sbyte w 0 < sbyte w 1 && sbyte w 1 < sbyte w 2

/-! Sources (R352 to R354). -/

/-- TSLOTk's fields. -/
def Chip.tsEn (c : Chip) (k : Nat) : Bool := c.bit (Reg.tslot k) 2

/-- The profile of a slot. -/
def Chip.tsProf (c : Chip) (k : Nat) : Nat := c.rf (Reg.tslot k) 0 2

/-- A slot's current as R355 and R256 take it: the record's or, up to AGE 3, the last accepted one. -/
def HubSlot.current (s : HubSlot) : Option Int := if s.fresh || s.age ≤ 3 then some s.istg else none

/-- The stage source. -/
def Chip.srcStage (c : Chip) (k : Nat) : Option Int :=
  let s := c.hslot k
  if s.fresh || s.age ≤ 3 then some (s.tstg * 64) else none

/-- The highest of some values. -/
def maxInt? (l : List Int) : Option Int :=
  l.foldl (fun m x => match m with | none => some x | some y => some (Max.max x y)) none

/-- The cell source: the highest measured temperature among the last 32 reports. -/
def Chip.srcCell (c : Chip) (k : Nat) : Option Int :=
  if c.bit (Reg.tslot k) 3 then (maxInt? ((c.tslotSt k).cells.filterMap id)).map (· * 64) else none

/-- The external source. -/
def Chip.srcExt (c : Chip) (k : Nat) : Option Int :=
  if c.bit (Reg.tslot k) 4 && (c.tslotSt k).exttOk then some (c.rsf (Reg.extt k) 0 16) else none

/-- A new cell report joins the last 32; 0x80 is not measured, and a stage without cells reports none (R123, R352). -/
def ThermSlot.report (t : ThermSlot) (s : HubSlot) : ThermSlot :=
  if s.cellNew && fld s.cell 0 8 ≠ 0xFF then
    let x := sfld s.cell 24 8
    { t with cells := ((if x = -128 then none else some x) :: t.cells).take 32 }
  else t

/-- The three sources, those that are broken left out. -/
def Chip.usable (c : Chip) (k : Nat) : List Int :=
  let t := c.tslotSt k
  (if t.brkS then [] else (c.srcStage k).toList) ++ (if t.brkC then [] else (c.srcCell k).toList) ++
    (if t.brkE then [] else (c.srcExt k).toList)

/-- One step of the disagreement count of a source (R353). -/
def difStep (tdiff : Int) (others : Nat) (top : Int) (broken : Bool) (x : Option Int) (n : Nat) : Nat :=
  match x with
  | some v => if !broken && 2 ≤ others && v < top - tdiff then Nat.min 64 (n + 1) else 0
  | none => 0

/-- The declaration of broken sources (R353), with event 83 for a slot's first. -/
def Chip.breakSources (c : Chip) (k : Nat) : Chip :=
  let t := c.tslotSt k
  let us := c.usable k
  let top := (maxInt? us).getD 0
  let td : Int := c.rf Reg.brkcfg 0 8 * 64
  let dif := difStep td us.length top
  let ds := dif t.brkS (c.srcStage k) t.difS
  let dc := dif t.brkC (c.srcCell k) t.difC
  let de := dif t.brkE (c.srcExt k) t.difE
  let railS := c.srcStage k = some (-128 * 64) || c.srcStage k = some (127 * 64)
  let railC := c.bit (Reg.tslot k) 3 && t.cells.any fun x => x = some (-127) || x = some 127
  let nb := { t with brkS := t.brkS || railS || ds = 64, brkC := t.brkC || railC || dc = 64,
                     brkE := t.brkE || de = 64, difS := ds % 64, difC := dc % 64, difE := de % 64 }
  let was := t.brkS || t.brkC || t.brkE
  let is := nb.brkS || nb.brkC || nb.brkE
  (c.modTherm k fun _ => nb).raiseIf (is && !was) 83 k

/-- Every enabled source is broken (R354). -/
def Chip.allBroken (c : Chip) (k : Nat) : Bool :=
  let t := c.tslotSt k
  t.brkS && (!c.bit (Reg.tslot k) 3 || t.brkC) && (!c.bit (Reg.tslot k) 4 || t.brkE)

/-- TST of this evaluation (R354). -/
def Chip.tstStep (c : Chip) (k : Nat) : Chip :=
  let none? := (c.srcStage k).isNone && (c.srcCell k).isNone && (c.srcExt k).isNone
  let x := maxInt? (c.usable k)
  c.modTherm k fun t => { t with stale := none?, tst := x.getD t.tst }

/-! The model (R355, R356). -/

/-- EST.ESLOTk: the slot is estimated (R255, R289). -/
def Chip.estimated (c : Chip) (k : Nat) : Bool :=
  c.bit (Reg.eslot k) 27 && c.rf (Reg.eslot k) 20 2 ≠ 3 && c.slotType k = 1

/-- The steady-state rise of the switch for a current, 1/64 °C (R355). -/
def Chip.tswOf (c : Chip) (p : Nat) (i : Int) : Int :=
  let psw := (i * i * c.rf (Reg.ppLoss p) 0 16) / 1000000 + (i.natAbs * c.rf (Reg.ppLoss p) 16 16 : Nat) / 1000
  psw * c.rf (Reg.ppSw p) 0 16 / 4000

/-- The steady-state rise of the core for a current, 1/64 °C (R355). -/
def Chip.tcoOf (c : Chip) (k p : Nat) (i : Int) : Int :=
  let rs := if c.estimated k then c.rf (Reg.eslot k) 0 20 else 0
  (i * i * rs) / 1000000000 * c.rf (Reg.ppCore p) 0 16 / 4000

/-- One step of a modelled rise towards its steady state (R355): `tau` in ticks. -/
def riseStep (period tau : Nat) (t d : Int) : Int :=
  if tau ≤ period then t * 65536 else d + ((t * 65536 - d) * period).tdiv tau

/-- The model of one slot at a deadline (R355, R356). -/
def Chip.modelStep (c : Chip) (k : Nat) : Chip :=
  let s := c.hslot k
  let p := c.tsProf k
  match s.current with
  | none => c
  | some i =>
    let t := c.tslotSt k
    let tsw := c.tswOf p i
    let tco := c.tcoOf k p i
    let init := t.fresh0 && s.fresh
    let tauS := c.rf (Reg.ppSw p) 16 16 * 100
    let tauC := c.rf (Reg.ppCore p) 16 16 * 100000000
    let dsw := if init then tsw * 65536 else riseStep c.tg.period tauS tsw t.dsw
    let dco := if init then tco * 65536 else riseStep c.tg.period tauC tco t.dco
    let c1 := c.modTherm k fun t =>
      { t with dsw := c.fitted 32 dsw, dco := c.useFree.fitted 32 dco, fresh0 := t.fresh0 && !init }
    let c1 := { c1 with freeIx := c1.freeIx + 2 }
    if init then c1.setBit Reg.thstat 0 else c1

/-! Warning, derate and bands (R359, R364). -/

/-- KTHSUG before the limit of R354 (R359). -/
def kthOf (lim : Word) (th : Int) : Nat :=
  let tder := sbyte lim 1 * 64
  let toff := sbyte lim 2 * 64
  if th ≤ tder then 128 else if toff ≤ th then 0 else ((128 * (toff - th)) / (toff - tder)).toNat

/-- The limits of R359 and the slot band, from the model's temperatures. -/
def Chip.limitStep (c : Chip) (k : Nat) : Chip :=
  let t := c.tslotSt k
  let p := c.tsProf k
  let lim := c.reg (Reg.ppLim p)
  let tsw := t.tst + t.dsw / 65536
  let tcore := t.tst + t.dco / 65536
  let th := Max.max tsw tcore
  let kth0 := kthOf lim th
  let kth := if c.allBroken k then Nat.min kth0 (c.rf Reg.brkcfg 8 8) else kth0
  let thys : Int := c.rf Reg.dielim 8 8
  let on := sbyte lim 0 * 64 ≤ th
  let off := th < (sbyte lim 0 - thys) * 64
  let c := (c.raiseIf (on && !t.warn) 80 k).raiseIf (kth < 128 && !t.derate) 81 k
  c.modTherm k fun t =>
    { t with tsw := tsw, tcore := tcore, kth := kth, warn := on || (t.warn && !off), derate := kth < 128,
             band := bandStep (c.reg (Reg.ppBth p)) tsw t.band }

/-- One slot's evaluation at an uplink deadline. -/
def Chip.thermSlot (c : Chip) (k : Nat) : Chip :=
  let s := c.hslot k
  let c := c.modTherm k fun t => t.report s
  if !c.tsEn k then c
  else ((((c.breakSources k).tstStep k).modelStep k).limitStep k)

/-- A loop's members at this deadline (R167). -/
def Chip.members (c : Chip) (n : Nat) : List Nat :=
  allSlots.filter fun k => c.slotType k ≠ 0 && c.slotLoop k = n && c.admitted k

/-- The highest slot band among a loop's members (R364). -/
def Chip.loopBand (c : Chip) (n : Nat) : Nat :=
  (c.members n).foldl (fun b k => Nat.max b (c.tslotSt k).band) 0

/-- THERM's part of an uplink deadline; a change of an enabled loop's band raises event 84 (R365). -/
def Chip.thermDeadline (c : Chip) : Chip :=
  if !(c.up .hub && c.bit Reg.thctl 0) then c else
  let c := allSlots.foldl Chip.thermSlot c
  (List.range 4).foldl (fun c n =>
    let b := c.loopBand n
    let was := c.therm.loopB.getD n 0
    { c with therm.loopB := c.therm.loopB.set n b }.raiseIf (b ≠ was && c.bit (Reg.lnCfg n) 0) 84) c

/-- EXTT_VALID_EXPIRY: 2 s after the last write (R352). -/
def Chip.exttExpiry (c : Chip) (k : Nat) : Chip :=
  if c.up .hub && (c.tslotSt k).exttOk then
    (c.elapseTo ((c.tslotSt k).exttAt + 200000000)).modTherm k fun t => { t with exttOk := false }
  else c

/-- ROR_WINDOW_END: the rate-of-rise window ends and the next begins (R361). -/
def Chip.rorWindowEnd (c : Chip) : Chip :=
  if !(c.up .hub && c.bit Reg.thctl 0) then c else
  let c := c.elapseTo (c.therm.rorAt + orOne (c.rf Reg.rorcfg 0 16) * 100000)
  let lim : Int := c.rf Reg.rorcfg 16 16
  let c := allSlots.foldl (fun c k =>
    if !c.tsEn k then c else
    let t := c.tslotSt k
    let rise := t.tst - t.ror0
    let fire := lim ≤ rise && !t.rorEv
    (c.raiseIf fire 82 k).modTherm k fun t =>
      { t with ror0 := t.tst, rorEv := fire || (t.rorEv && !(2 * rise < lim)) }) c
  { c with therm.rorAt := c.now }

/-! The die (R362, R364 to R366). -/

/-- A die sensor's reading is in range. -/
def dieOk (x : Int) : Bool := -55 * 64 ≤ x && x ≤ 175 * 64

/-- The die band that consumers see: 3 while the HUB domain is down (R366). -/
def Chip.dieBandSeen (c : Chip) : Nat := if c.up .hub then c.therm.dieBand else 3

/-- DIE_CONVERSION (R362, R364, R365); a change of band also ends the margin planner's window (R313). -/
def Chip.dieConversion (c : Chip) (s0 s1 : Int) : Chip :=
  if !(c.up .hub && c.up .afe) then c else
  let die := (maxInt? ([s0, s1].filter dieOk)).getD 0x7FFF
  let brk := !dieOk s0 || !dieOk s1
  let warn := sbyte (c.reg Reg.dielim) 0
  let thys : Int := c.rf Reg.dielim 8 8
  let on := warn * 64 ≤ die
  let off := die < (warn - thys) * 64
  let was := c.therm
  let band := bandStep (c.reg Reg.diebth) die was.dieBand
  let c := { c with
    therm.s0 := s0
    therm.s1 := s1
    therm.die := die
    therm.dieBrk := brk
    therm.dieEv := was.dieEv || brk
    therm.dieWarn := on || (was.dieWarn && !off)
    therm.dieBand := band
    age.bandEnd := c.age.bandEnd || band ≠ was.dieBand }
  ((c.raiseIf (brk && !was.dieEv) 83 0x80).raiseIf (on && !was.dieWarn) 80 0x80).raiseIf (band ≠ was.dieBand) 84

/-! THERM registers (R367, R368). -/

/-- A read of a THERM register. -/
def readTherm (c : Chip) (a : Nat) : Word :=
  let T := c.therm
  let slot (base step : Nat) := c.tslotSt ((a - base) / step)
  if a = Reg.thstat then c.reg a ||| pack [(2, b2n T.dieBrk)]
  else if a = Reg.dietemp then pack [(0, bitsI 16 T.die), (16, T.dieBand)]
  else if a = Reg.diesens then pack [(0, bitsI 16 T.s0), (16, bitsI 16 T.s1)]
  else if a = Reg.loopband then pack ((List.range 4).map fun n => (2 * n, T.loopB.getD n 0))
  else if Reg.tslot 0 ≤ a && a < Reg.tslot 128 then
    let t := slot (Reg.tslot 0) 4
    c.reg a ||| pack [(8, b2n t.brkS), (9, b2n t.brkC), (10, b2n t.brkE)]
  else if Reg.extt 0 ≤ a && a < Reg.extt 128 then c.reg a ||| pack [(16, b2n (slot (Reg.extt 0) 4).exttOk)]
  else if Reg.tst 0 ≤ a && a < Reg.tst 128 then
    let t := slot (Reg.tst 0) 8
    if (a - Reg.tst 0) % 8 = 0 then
      pack [(0, bitsI 16 t.tst), (16, bitsI 15 (Max.max t.tsw t.tcore / 2)), (31, b2n t.stale)]
    else pack [(0, bitsI 16 t.tsw), (16, bitsI 16 t.tcore)]
  else if Reg.kthsug 0 ≤ a && a < Reg.kthsug 32 then
    pack ((List.range 4).map fun j => (8 * j, (c.tslotSt (a - Reg.kthsug 0 + j)).kth))
  else if Reg.sband 0 ≤ a && a < Reg.sband 8 then
    pack ((List.range 16).map fun j => (2 * j, (c.tslotSt (4 * (a - Reg.sband 0) + j)).band))
  else if Reg.broken 0 ≤ a && a < Reg.broken 4 then
    maskWord fun j => let t := c.tslotSt (8 * (a - Reg.broken 0) + j); t.brkS || t.brkC || t.brkE
  else if Reg.warnr 0 ≤ a && a < Reg.warnr 4 then maskWord fun j => (c.tslotSt (8 * (a - Reg.warnr 0) + j)).warn
  else c.reg a

/-- Writing ones to BROKENi re-admits the slots' broken sources (R353). -/
def Chip.readmit (c : Chip) (i : Nat) (v : Word) : Chip :=
  (List.range 32).foldl (fun c j =>
    if v.getLsbD j then
      c.modTherm (32 * i + j) fun t =>
        { t with brkS := false, brkC := false, brkE := false, difS := 0, difC := 0, difE := 0 }
    else c) c

/-- A write to a THERM register (R352, R356, R358, R363). -/
def writeTherm (c : Chip) (a : Nat) (v : Word) : Chip :=
  let limit := (List.range 4).any fun p => a = Reg.ppLim p
  let bth := a = Reg.diebth || (List.range 4).any fun p => a = Reg.ppBth p
  if (limit || bth) && !rising3 v then c.setBit Reg.thstat 1
  else if Reg.tslot 0 ≤ a && a < Reg.tslot 128 then
    let k := (a - Reg.tslot 0) / 4
    let on := v.getLsbD 2 && !c.tsEn k
    (c.plainWrite a v).modTherm k fun t => { t with fresh0 := t.fresh0 || on }
  else if Reg.extt 0 ≤ a && a < Reg.extt 128 then
    (c.plainWrite a v).modTherm ((a - Reg.extt 0) / 4) fun t => { t with exttOk := true, exttAt := c.now }
  else if Reg.broken 0 ≤ a && a < Reg.broken 4 then c.readmit ((a - Reg.broken 0) / 4) v
  else c.plainWrite a v

end Sys2Proof.Machine
end

