-- ==== Sys2Proof/Machine/Loop.lean ====
section
/-! DEFINITION. The LOOP block: members, inputs latched at the deadline, the set-point path, coefficient sets, test
injection, response capture, and its registers (R167 to R206; log 18 to 22). -/

namespace Sys2Proof.Machine

/-- One loop. -/
def Chip.loopSt (c : Chip) (n : Nat) : Loop := c.loop.loops.getD n {}

/-- Change one loop. -/
def Chip.modLoop (c : Chip) (n : Nat) (f : Loop → Loop) : Chip :=
  { c with loop.loops := c.loop.loops.modify n f }

/-- LnCFG.EN as it reads. -/
def Chip.loopEn (c : Chip) (n : Nat) : Bool := c.bit (Reg.lnCfg n) 0

/-- LnCFG.MODE: duty (R204). -/
def Chip.dutyMode (c : Chip) (n : Nat) : Bool := c.bit (Reg.lnCfg n) 2

/-! Policy (R25, R176, R178, R567). -/

/-- The loop RAM that LOOP reads the policy from; none while neither tile's is reachable (R567). -/
def Chip.policyTile (c : Chip) : Option Nat :=
  let t := c.activeTile.getD c.refTile
  if c.up (tileDom t) then some t else none

/-- The policy bank selected in a tile's loop RAM: its first address (R25, Table 1.2). -/
def Chip.bankAt (c : Chip) (t : Nat) : Nat :=
  loopRam t + 0xC00 + 0x400 * ((c.byte (loopRam t + 0x1C20)).toNat % 2)

/-- A word of a bank. -/
def Chip.bankWord (c : Chip) (b o : Nat) : Word := word (c.bytesNat (b + o) 4)

/-- The loop fields of a bank (Tables 5.2 and 7.1). -/
def Chip.policyOf (c : Chip) (b n : Nat) : Policy :=
  let w (o : Nat) := c.bankWord b (0x20 * n + o)
  { vset := (w 0).toNat, vmin := (w 4).toNat, vmax := (w 8).toNat, rate := orOne (w 0xC).toNat,
    imax := (w 0x10).toInt, imin := (w 0x14).toInt, rll := if n = 0 then (w 0x18).toNat else 0,
    pcap := if n = 0 then (c.bankWord b (0x80 + 4)).toNat else 0 }

/-- VMAX after the fused clamp (R178). -/
def Chip.vmaxEff (c : Chip) (p : Policy) : Nat := Nat.min p.vmax c.fvset

/-- VMIN, or VMAX where it exceeds that (R178). -/
def Chip.vminEff (c : Chip) (p : Policy) : Nat := Nat.min p.vmin (c.vmaxEff p)

/-! Commands (R177 to R180). -/

/-- Raise an event that a notice may stand behind (R215). -/
def Chip.raiseNote (c : Chip) (ev n kind : Nat) (lseq : Option Nat) : Chip :=
  { c with raised := c.raised ++
    [{ ev := ev, stamp := c.tg.tick, notice := lseq.map fun q => { lseq := q, loop := n, kind := kind } }] }

/-- A goal is rejected: REJ and event 46 (R177, R178). -/
def Chip.rejectGoal (c : Chip) (n : Nat) (lseq : Option Nat) : Chip :=
  (c.setBit (Reg.lnStat n) 17).raiseNote 46 n 3 lseq

/-- A command is taken: it supersedes one that has not settled, with SUPER and event 45 (R179). -/
def Chip.takeGoal (c : Chip) (n g : Nat) (lseq : Option Nat) : Chip :=
  let l := c.loopSt n
  let c := if l.cst = 1 || l.cst = 2 then (c.setBit (Reg.lnStat n) 18).raiseNote 45 n 2 l.goalSeq else c
  c.modLoop n fun l =>
    { l with goal := g, goalSeq := lseq, cseq := (l.cseq + 1) % 65536, cst := 1, settle := 0, settleNew := 0 }

/-- A command is tested against the limits and taken or rejected (R178, R179). -/
def Chip.command (c : Chip) (n g : Nat) (lseq : Option Nat) : Chip :=
  let p := (c.loopSt n).pol
  if c.vminEff p ≤ g && g ≤ c.vmaxEff p then c.takeGoal n g lseq else c.rejectGoal n lseq

/-- The commands of one deadline: those of the bank, or the goals of the link in arrival order (R177). -/
def Chip.commands (c : Chip) (n : Nat) (goals : List Goal) : Chip :=
  let l := c.loopSt n
  let src := c.bit (Reg.lnCfg n) 3
  let c := if src then goals.foldl (fun c g => c.command n g.arg (some g.lseq)) c
    else
      let c := goals.foldl (fun c g => c.rejectGoal n (some g.lseq)) c
      if l.spsrc || l.vsetSeen ≠ some l.pol.vset then c.command n l.pol.vset none else c
  c.modLoop n fun l => { l with spsrc := src, vsetSeen := some l.pol.vset }

/-! Feedback (R174). -/

/-- A corrected result of the conversions that the vertex triggered, while AFE is up. -/
def Chip.vertexResult (c : Chip) (ch : Nat) : Option Int :=
  if c.up .afe then (c.adc.vtxGot.find? fun p => p.1 = ch).map (·.2) else none

/-- The mean VSTG of fresh members, mV, rounded to nearest (R174). -/
def Chip.meanVstg (c : Chip) (ms : List Nat) : Option Int :=
  let vs := (ms.map c.hslot).filter (·.fresh)
  if vs.isEmpty then none
  else some (divHalfAway ((vs.map fun s => (s.vstg : Int)).sum) (10 * vs.length))

/-- This deadline's feedback; none is stale (R174). -/
def Chip.feedback (c : Chip) (n : Nat) (ms : List Nat) : Option Int :=
  if c.bit (Reg.lnCfg n) 7 then c.meanVstg ms else c.vertexResult (c.rf (Reg.lnCfg n) 8 5)

/-! The set-point path (R181 to R184; roundings: log 18). -/

/-- The step of POS for one period: 16 fractional bits (R181). -/
def rampStep (rate period : Nat) : Int := (rate * period * 65536 / 100000 : Nat)

/-- POS after a step towards GOAL (R181). -/
def rampTo (pos goal step : Int) : Int :=
  if pos < goal then Min.min (pos + step) goal else if goal < pos then Max.max (pos - step) goal else pos

/-- The load-line term with 16 fractional bits (R181). -/
def llTerm (rll : Nat) (ishf : Int) : Int := ((rll : Int) * ishf * 65536).tdiv 1000000

/-- The filtered shelf current (R182). -/
def Chip.shelfFilter (c : Chip) (l : Loop) : Int :=
  if c.up .afe then l.ishf + (c.gate.ishv - l.ishf).tdiv (2 ^ c.rf (Reg.lnFilt 0) 4 3 : Nat) else l.ishf

/-- FFOUT (R184). -/
def Chip.ffOut (c : Chip) (n : Nat) (moved : Int) : Int :=
  if n = 0 && c.bit (Reg.lnCfg 0) 5 then
    divHalfAway ((c.rf (Reg.lnCbus 0) 0 20 : Nat) * moved * 100) (c.tg.period * 65536 : Nat)
  else 0

/-- The step of one loop's set-point path with its target, settling and load-release detection; `comp`: a tile computes
in this period (R181 to R184, R194, R307). -/
def Chip.pathStep (c : Chip) (n : Nat) (comp : Bool) : Chip :=
  let l := c.loopSt n
  let p := l.pol
  let ll := if l.llen then llTerm p.rll l.ishf else 0
  let pos := if l.llPend then l.tgtDone * 65536 + ll else l.pos
  let goal : Int := (l.goal : Int) * 65536
  let new := if comp then rampTo pos goal (rampStep p.rate c.tg.period) else pos
  let raw := (new - ll).tdiv 65536
  let tgt := clampI (c.vminEff p) (c.vmaxEff p) raw
  let near := new = goal && (l.vmeas - tgt).natAbs ≤ c.rf (Reg.lnSetl n) 0 16
  let count := if near then l.settle + 1 else 0
  let open_ := l.cst = 1 || l.cst = 2
  let done := open_ && comp && orOne (c.rf (Reg.lnSetl n) 16 8) ≤ count
  let brk := c.bit (Reg.lnBrkn n) 8 && (c.rf (Reg.lnBrk n) 0 16 : Int) ≤ l.vmeas - tgt &&
    (c.rf (Reg.lnBrk n) 16 16 : Int) ≤ l.vmeas - l.vprev
  let c1 := c.modLoop n fun l =>
    { l with posNew := new, ll := ll, tgt := tgt, tclamp := decide (tgt ≠ raw), settleNew := count, brkdet := brk,
             ff := c.ffOut n (new - pos),
             cst := if done then 3 else if open_ then (if new = goal then 2 else 1) else l.cst }
  if done then c1.raiseNote 44 n 1 l.goalSeq else c1

/-- A change of LLEN takes effect with event 47 (R183). -/
def Chip.llStep (c : Chip) (n : Nat) : Chip :=
  let want := n = 0 && c.bit (Reg.lnCfg 0) 4
  if (c.loopSt n).llen ≠ want then (c.modLoop n fun l => { l with llen := want, llPend := true }).raise 47 else c

/-- The clamp of VMAX: VCLAMP at each deadline, event 63 at the first of a run (R178). -/
def Chip.vclampStep (c : Chip) (n : Nat) : Chip :=
  let l := c.loopSt n
  let acts := c.fvset < l.pol.vmax
  let c := if acts then (c.setBit (Reg.lnStat n) 19).raiseIf (!l.vclampOn) 63 else c
  c.modLoop n fun l => { l with vclampOn := acts }

/-! The deadline of one loop (R168 to R184). -/

/-- A loop that is not enabled: it stops, and goals delivered to it are rejected (R170, R177, R214). -/
def Chip.loopIdle (c : Chip) (n : Nat) (goals : List Goal) : Chip :=
  let c := goals.foldl (fun c g => c.rejectGoal n (some g.lseq)) c
  c.modLoop n fun l =>
    { l with on := false, init := false, nomem := false, startReq := false, goalSet := false, needInit := false,
             vclampOn := false, fbstale := false, tclamp := false, brkdet := false, d := 0, icap := 0x7FFFFFFF }

/-- GOAL and the command state at the deadline a start falls on (R169). -/
def Chip.startGoal (c : Chip) (n : Nat) : Chip :=
  let l := c.loopSt n
  if !l.startReq || l.goalSet then c else
  let src := c.bit (Reg.lnCfg n) 3
  c.modLoop n fun l =>
    { l with goalSet := true, goal := if src then l.vmeas.toNat else l.pol.vset, cst := 0, goalSeq := none, settle := 0,
             spsrc := src, vsetSeen := some l.pol.vset }

/-- POS and INIT at the first deadline, from a start on, at which the loop has a member (R168, R169). -/
def Chip.startPos (c : Chip) (n : Nat) : Chip :=
  c.modLoop n fun l =>
    if l.startReq then
      { l with startReq := false, goalSet := false, init := true, needInit := true, pos := l.vmeas * 65536,
               vprev := l.vmeas, tgtDone := l.vmeas, llen := n = 0 && c.bit (Reg.lnCfg 0) 4, llPend := false, settle := 0 }
    else l

/-- The deadline of an enabled loop. -/
def Chip.loopRun (c : Chip) (n : Nat) (comp : Bool) (goals : List Goal) : Chip :=
  let ms := c.members n
  let fb := c.feedback n ms
  let c := match c.policyTile with
    | some t => c.modLoop n fun l => { l with pol := c.policyOf (c.bankAt t) n }
    | none => c
  let c := c.modLoop n fun l =>
    { l with on := true, vprev := l.vmeas, vmeas := fb.getD l.vmeas, fbstale := fb.isNone, nomem := ms.isEmpty,
             tb := c.therm.loopB.getD n 0, ishf := if n = 0 then c.shelfFilter l else l.ishf }
  let c := c.startGoal n
  if ms.isEmpty then
    let c := c.modLoop n fun l =>
      if l.init then { l with init := false, startReq := true, goalSet := true, needInit := false } else l
    let c := (c.vclampStep n).commands n goals
    c.modLoop n fun l => { l with posNew := l.pos, settleNew := l.settle, brkdet := false, tclamp := false }
  else
    (((((c.startPos n).vclampStep n).commands n goals).llStep n).pathStep n comp)

/-- LnICAP (R242). -/
def Chip.icapOf (l : Loop) : Int :=
  if l.pol.pcap = 0 then 0x7FFFFFFF
  else Min.min 0x7FFFFFFF ((l.pol.pcap * 100000 : Nat) / (Max.max (Max.max l.vmeas l.pol.vmin) 1000))

/-! Coefficient sets (R185, R190, R191). -/

/-- The staged words of set `r`: B0 to B3, A1 to A3, SHIFT. -/
def Chip.stagedSet (c : Chip) (r : Nat) : List Word :=
  [c.reg (Reg.csB0 r), c.reg (Reg.csB1 r), c.reg (Reg.csB2 r), c.reg (Reg.csB3 r), c.reg (Reg.csA1 r),
   c.reg (Reg.csA2 r), c.reg (Reg.csA3 r), c.reg (Reg.csShift r)]

/-- The set in force. -/
def Chip.coefSet (c : Chip) (r : Nat) : List Word := c.loop.coef.getD r []

/-- A set whose B0 to B3 are all 0 is invalid (R190). -/
def Chip.setValid (c : Chip) (r : Nat) : Bool := (c.coefSet r).take 4 != [0, 0, 0, 0]

/-- A commit takes effect at the deadline (R191). -/
def Chip.coefCommit (c : Chip) : Chip :=
  if !c.loop.cpend then c else
  let new := (List.range 16).map c.stagedSet
  let ch := pack ((List.range 16).map fun r => (r, b2n (c.coefSet r != new.getD r [])))
  { c with loop.coef := new, loop.cpend := false, loop.changed := c.loop.changed ||| ch.truncate 16 }

/-! Test injection (R198, R199, R202). -/

/-- INJCTL.LOOP. -/
def Chip.injLoop (c : Chip) : Nat := c.rf Reg.injctl 1 2

/-- d of the present generator state (R198); the sine is exact to within the rule's bound only (log 4). -/
def Chip.injValue (c : Chip) : Int :=
  let amp : Int := c.rf Reg.injamp 0 16
  if c.bit Reg.injctl 4 then (if c.loop.inj.prbs % 2 = 1 then amp else -amp)
  else
    let top := amp + amp / 32768 + 1
    clampI (-top) top (divHalfAway (amp * Config.sineQ30 (word c.loop.inj.phase)) (2 ^ 30))

/-- Injection stops; any cause but a written 0 is an abort (R199). -/
def Chip.injStop (c : Chip) (cause : Option Nat) : Chip :=
  let c := { c with loop.inj := { c.loop.inj with run := false, startReq := false, stopReq := none,
                                                  abort := cause.getD c.loop.inj.abort } }
  let c := c.clrBit Reg.injctl 0
  if cause.isSome then c.setBit Reg.injstat 1 else c

/-- Injection at an uplink deadline (R199). -/
def Chip.injDeadline (c : Chip) : Chip :=
  let j := c.loop.inj
  let c := if j.run then
      if !c.bit Reg.injctl 0 then c.injStop none
      else match j.stopReq with
        | some e => c.injStop (some e)
        | none => if !c.loopEn c.injLoop || c.pwr.cur != .regulating then c.injStop (some 0xFF) else c
    else if j.startReq then
      let r := if c.bit Reg.injctl 5 then 15 else 7
      { c with loop.inj := { j with run := true, startReq := false, stopReq := none, phase := 0, chips := 0,
                                    prbs := orOne (c.rf Reg.injseed 0 r) } }
    else c
  let d := c.injValue
  let n := c.injLoop
  { c with loop.loops := c.loop.loops.mapIdx fun i l => { l with d := if c.loop.inj.run && i = n then d else 0 } }

/-- One advance of the shift register of R198. -/
def prbsStep (r s : Nat) : Nat := (2 * s + (s / 2 ^ (r - 1) + s / 2 ^ (r - 2)) % 2) % 2 ^ r

/-- The injection step of a completed period (R198). -/
def Chip.injAdvance (c : Chip) : Chip :=
  let j := c.loop.inj
  if !j.run then c else
  let chips := j.chips + 1
  let r := if c.bit Reg.injctl 5 then 15 else 7
  { c with loop.inj := { j with
      phase := (j.phase + (c.reg Reg.injfrq).toNat) % 2 ^ 32
      chips := chips
      prbs := if chips % 2 ^ c.rf Reg.injctl 8 3 = 0 then prbsStep r j.prbs else j.prbs } }

/-! Capture (R200 to R202). -/

/-- The pair of a completed period (R200). -/
def Chip.capPair (c : Chip) : Word × Word :=
  let n := if c.loop.inj.run then c.injLoop else c.rf Reg.capctl 2 2
  let d := c.loop.staged.getD n {}
  if !c.loop.inj.run then (wordI d.err, wordI d.tot)
  else if c.bit Reg.injctl 3 then (wordI d.xu, wordI (d.xu + (c.loopSt n).d))
  else (wordI d.xe, wordI d.err)

/-- Store a pair and move on: a full buffer, the other buffer, the end of capture (R201). -/
def Chip.capStore (c : Chip) (p : Word × Word) : Chip :=
  let j := c.loop.inj
  let a := j.capBase + 8 * j.capPtr
  let c := if c.up .sup then (c.putBytes a p.1.toNat 4).putBytes (a + 4) p.2.toNat 4 else c
  let ptr := (j.capPtr + 1) % 8192
  let buf := j.capPtr / 4096
  if ptr % 4096 ≠ 0 then { c with loop.inj.capPtr := ptr }
  else
    let c := c.setBit Reg.capstat buf
    let other := c.bit Reg.capstat (1 - buf)
    if c.bit Reg.capctl 1 then { c with loop.inj := { j with capPtr := ptr, capRun := false } }
    else if other then { c with loop.inj := { j with capPtr := ptr, capRun := false } }.setBit Reg.capstat 4
    else { c with loop.inj := { j with capPtr := ptr, capBuf := 1 - buf } }

/-- The capture step of one period: a pair, or the overrun marker, once every 2^CAPDEC periods (R200). -/
def Chip.capStep (c : Chip) (completed : Bool) : Chip :=
  let j := c.loop.inj
  if !j.capRun then c else
  let due := j.capDec = 0
  let c := if due then c.capStore (if completed then c.capPair else (0x80000000, 0x80000000)) else c
  { c with loop.inj.capDec := (j.capDec + 1) % 2 ^ c.rf Reg.capctl 4 3 }

/-- CAPBASE names a 64 KiB region of data SRAM (R201). -/
def capBaseOk (a : Nat) : Bool := a % 65536 = 0 && 0x20000000 ≤ a && a < 0x20040000

/-- A write to CAPCTL (R201). -/
def Chip.writeCapctl (c : Chip) (v : Word) : Chip :=
  let was := c.bit Reg.capctl 0
  let c := c.plainWrite Reg.capctl v
  let base := (c.reg Reg.capbase).toNat
  if !v.getLsbD 0 then { c with loop.inj.capRun := false }
  else if was && c.loop.inj.capRun then c
  else if capBaseOk base then
    { c with loop.inj := { c.loop.inj with capRun := true, capDec := 0, capBuf := 0, capPtr := 0, capBase := base } }
  else c.setBit Reg.capstat 6

/-- A takeover stops injection and capture; event 39 is its cause (R199, R202). -/
def Chip.captureTakeover (c : Chip) : Chip :=
  let c := if c.loop.inj.run then c.injStop (some 39) else c
  { c with loop.inj.capRun := false }.setBit Reg.capstat 5

/-! The deadline and the chord (R173, R191, R197, R206, R214). -/

/-- The goals of one loop leave the goal queue at the deadline (R214). -/
def Chip.goalsFor (c : Chip) (n : Nat) : List Goal :=
  if c.up .ifc then c.spl.goals.filter fun g => g.loop = n && g.tick < c.tg.tick else []

/-- LOOP commits its pending items: the period completed (R197). -/
def Chip.loopCommit (c : Chip) : Chip :=
  let c := c.capStep true
  let c := c.injAdvance
  { c with
    loop.comm := c.loop.staged
    loop.changed := 0
    loop.loops := c.loop.loops.map fun l =>
      if l.on && l.init then
        { l with pos := l.posNew, settle := l.settleNew, tgtDone := l.tgt, llPend := false, needInit := false }
      else l }

/-- LOOP discards its pending items (R197, R292, R307). -/
def Chip.loopDiscard (c : Chip) : Chip := c.capStep false

/-! LOOP registers (R171, R203 to R206). -/

/-- LnSTAT (Table 5.11). -/
def Chip.readLnStat (c : Chip) (n : Nat) : Word :=
  let l := c.loopSt n
  let d := c.loop.done.getD n {}
  c.reg (Reg.lnStat n) ||| pack [(16, b2n l.nomem), (15, b2n l.init), (14, b2n l.fbstale), (13, b2n l.tclamp),
    (12, b2n l.brkdet), (11, b2n d.brkAct), (10, b2n d.satLo), (9, b2n d.satHi),
    (8, b2n (l.posNew ≠ (l.goal : Int) * 65536)), (4, d.cand), (0, d.rgn)]

/-- A read of a loop's register. -/
def Chip.readLoopN (c : Chip) (n a : Nat) : Word :=
  let l := c.loopSt n
  let d := c.loop.done.getD n {}
  if a = Reg.lnStat n then c.readLnStat n
  else if a = Reg.lnVmeas n then wordI l.vmeas
  else if a = Reg.lnTgt n then wordI l.tgt
  else if a = Reg.lnPos n then wordI (l.posNew / 65536)
  else if a = Reg.lnGoal n then word l.goal
  else if a = Reg.lnCmd n then pack [(0, l.cseq), (16, l.cst)]
  else if a = Reg.lnErr n then wordI d.err
  else if a = Reg.lnUout n then wordI (if c.dutyMode n then d.duty else d.tot)
  else if a = Reg.lnFfout n then wordI l.ff
  else if a = Reg.lnLlout n then wordI (l.ll.tdiv 65536)
  else if a = Reg.lnIflt n then wordI d.ifl
  else c.reg a

/-- A read of a LOOP register below the tile-control window. -/
def readLoop (c : Chip) (a : Nat) : Word :=
  let j := c.loop.inj
  if a = Reg.loopstat then
    c.reg a ||| pack [(4, b2n c.loop.cpend), (1, Nat.min 3 c.fo.consec), (0, b2n c.loop.ovr)]
  else if a = Reg.injstat then c.reg a ||| pack [(0, b2n j.run), (8, j.abort)]
  else if a = Reg.capstat then c.reg a ||| pack [(2, j.capBuf), (3, b2n j.capRun)]
  else if a = Reg.capptr then word j.capPtr
  else if Reg.lnCfg 0 ≤ a && a < Reg.lnCfg 4 then c.readLoopN ((a - Reg.lnCfg 0) / 0x80) a
  else c.reg a

/-- Why a write of LnCFG is refused (R171). -/
def Chip.cfgRefused (c : Chip) (n : Nat) (v : Word) : Bool :=
  let old := c.reg (Reg.lnCfg n)
  (c.loopEn n && (v ^^^ old) &&& 0x1F3F86 ≠ 0) || (n = 0 && v.getLsbD 2) ||
    (n ≠ 0 && (v.getLsbD 4 || v.getLsbD 5)) || (v.getLsbD 6 && !v.getLsbD 2) ||
    (v.getLsbD 6 && (c.reg (Reg.lnVffnom n) = 0 || c.reg (Reg.lnVffmin n) = 0))

/-- A write to LnCFG (R169 to R171). -/
def Chip.writeLnCfg (c : Chip) (n : Nat) (v : Word) : Chip :=
  if c.cfgRefused n v then c.setBit Reg.loopstat 3
  else
    let was := c.loopEn n
    let c := c.plainWrite (Reg.lnCfg n) v
    if v.getLsbD 0 && !was then
      c.modLoop n fun l => { l with startReq := true, goalSet := false }
    else if !v.getLsbD 0 then c.modLoop n fun l => { l with startReq := false } else c

/-- A write to INJCTL (R199, R205). -/
def Chip.writeInjctl (c : Chip) (v : Word) : Chip :=
  let was := c.bit Reg.injctl 0
  let c := if c.loop.inj.run then c.putFld Reg.injctl 0 1 (b2n (v.getLsbD 0)) else c.plainWrite Reg.injctl v
  { c with loop.inj.startReq := v.getLsbD 0 && !c.loop.inj.run && (c.loop.inj.startReq || !was) }

/-- A write to a LOOP register below the tile-control window. -/
def writeLoop (c : Chip) (a : Nat) (v : Word) : Chip :=
  if a = Reg.coefcmt then (if v.getLsbD 0 then { c with loop.cpend := true } else c)
  else if a = Reg.injctl then c.writeInjctl v
  else if a = Reg.capctl then c.writeCapctl v
  else
    match (List.range 4).find? fun n => a = Reg.lnCfg n || a = Reg.lnVffnom n || a = Reg.lnVffmin n with
    | some n =>
      if a = Reg.lnCfg n then c.writeLnCfg n v
      else if v = 0 && c.bit (Reg.lnCfg n) 6 then c.setBit Reg.loopstat 3 else c.plainWrite a v
    | none => c.plainWrite a v

end Sys2Proof.Machine
end

