-- ==== Sys2Proof/Machine/Prog.lean ====
section
/-! DEFINITION. The mirror shadow, the state that hardware sets at a start or a resume, and the prescribed loop program's
gain scheduling, compensator and braking (R185 to R196, R300, R309; log 23 says when the program runs as one). -/

namespace Sys2Proof.Machine

/-! The mirror region and its shadow (R192, R193, R250, R300). -/

/-- Offset of the mirror region in a loop RAM (Table 1.2). -/
abbrev mirrorOff : Nat := 0x1400

/-- `n` bytes of a tile's shadow at an offset, little-endian; unlisted bytes are 0. -/
def Tile.shGet (T : Tile) (o : Nat) : Nat → Nat
  | 0 => 0
  | n + 1 => ((tget T.shadow o).getD 0).toNat + 256 * T.shGet (o + 1) n

/-- Store `n` bytes in a tile's shadow. -/
def Tile.shPut (T : Tile) (o v : Nat) : Nat → Tile
  | 0 => T
  | n + 1 =>
    { T with shadow := tput (fun _ => 0) T.shadow o (BitVec.ofNat 8 v) }.shPut (o + 1) (v / 256) n

/-- A signed field of the shadow. -/
def Tile.shInt (T : Tile) (o n : Nat) : Int := signed (8 * n) (T.shGet o n)

/-- Store a signed field in the shadow. -/
def Tile.shPutInt (T : Tile) (o : Nat) (v : Int) (n : Nat) : Tile := T.shPut o (bitsI (8 * n) v) n

/-- The shadow is loaded from the region at the uplink deadline (R193). -/
def Chip.shadowLoad (c : Chip) (t : Nat) : Chip :=
  let a := loopRam t + mirrorOff
  let cells := (List.range 0x400).foldr (fun i l =>
    let b := c.byte (a + i)
    if b = 0 then l else (i, b) :: l) []
  c.modTile t fun T => { T with shadow := cells, shadowBad := c.parityBad a 0x400 }

/-- The bytes of a region from 0x000 to 0x3FB as the fixed check covers them. -/
def Chip.mirrorBytes (c : Chip) (t : Nat) : List Byte := c.byteList (loopRam t + mirrorOff) 0x3FC

/-- The shadow replaces the region in the tick of completion, with MIRSEQ, MIRTILE and MCHK (R193, R300). -/
def Chip.shadowCommit (c : Chip) (t : Nat) : Chip :=
  let T := ((c.tile t).shPut 0x320 c.tg.perseq 4).shPut 0x324 t 4
  let T := T.shPut 0x328 0 212
  let a := loopRam t + mirrorOff
  let c := (List.range 0x3FC).foldl (fun c i => c.putByte (a + i) ((tget T.shadow i).getD 0)) c
  let chk := check (c.mirrorBytes t)
  (c.putBytes (a + 0x3FC) chk.toNat 4).modTile t fun _ => T

/-- Offset of a loop's state in the mirror (Table 5.5). -/
def loopOff (n : Nat) : Nat := 0x60 * n

/-- RGNW of a loop (Table 5.5). -/
def Tile.rgnw (T : Tile) (n : Nat) : Word := word (T.shGet (loopOff n + 0x34) 4)

/-- A loop's compensator state, decoded from the mirror (Table 5.5). -/
structure Comp where
  s1  : Int
  s2  : Int
  s3  : Int
  e   : List Int
  u   : List Int
  ifl : Int
  rgn : Nat
  cand : Nat
  qual : Nat
  init : Bool
  brk : Bool
  brkN : Nat
  ib  : Nat
  nb  : Nat
  tot : Int
  deriving DecidableEq, Repr

/-- Read a loop's state. -/
def Tile.comp (T : Tile) (n : Nat) : Comp :=
  let o := loopOff n
  let w := T.rgnw n
  { s1 := T.shInt o 8, s2 := T.shInt (o + 8) 8, s3 := T.shInt (o + 16) 8,
    e := (List.range 3).map fun i => T.shInt (o + 0x18 + 4 * i) 4,
    u := (List.range 3).map fun i => T.shInt (o + 0x24 + 4 * i) 4,
    ifl := T.shInt (o + 0x30) 4, rgn := fld w 0 4, cand := fld w 4 4, qual := fld w 8 4, init := w.getLsbD 12,
    brk := w.getLsbD 13, brkN := fld w 14 4, ib := fld w 18 2, nb := fld w 20 2, tot := T.shInt (o + 0x38) 4 }

/-- Store a loop's state. -/
def Tile.putComp (T : Tile) (n : Nat) (s : Comp) : Tile :=
  let o := loopOff n
  let w := pack [(0, s.rgn), (4, s.cand), (8, s.qual), (12, b2n s.init), (13, b2n s.brk), (14, s.brkN), (18, s.ib),
    (20, s.nb)]
  let T := ((T.shPutInt o s.s1 8).shPutInt (o + 8) s.s2 8).shPutInt (o + 16) s.s3 8
  let T := (List.range 3).foldl (fun T i => T.shPutInt (o + 0x18 + 4 * i) (s.e.getD i 0) 4) T
  let T := (List.range 3).foldl (fun T i => T.shPutInt (o + 0x24 + 4 * i) (s.u.getD i 0) 4) T
  ((T.shPutInt (o + 0x30) s.ifl 4).shPut (o + 0x34) w.toNat 4).shPutInt (o + 0x38) s.tot 4

/-- A loop without state (R168). -/
def Comp.none : Comp :=
  { s1 := 0, s2 := 0, s3 := 0, e := [0, 0, 0], u := [0, 0, 0], ifl := 0, rgn := 0, cand := 0, qual := 0, init := false,
    brk := false, brkN := 0, ib := 0, nb := 0, tot := 0 }

/-- Allocation state of a slot in the mirror (Table 7.6). -/
def Tile.slotSt (T : Tile) (k : Nat) : Nat := T.shGet (0x1A0 + k) 1 % 4

/-- Periods in WAKING or SHEDDING (Table 7.6). -/
def Tile.slotCnt (T : Tile) (k : Nat) : Nat := T.shGet (0x1A0 + k) 1 / 4

/-- Store a slot's allocation state. -/
def Tile.putSlot (T : Tile) (k st cnt : Nat) : Tile := T.shPut (0x1A0 + k) (st + 4 * cnt) 1

/-- ACTMASK of the mirror (Table 7.6). -/
def Tile.actmask (T : Tile) : BitVec 128 := BitVec.ofNat 128 (T.shGet 0x180 16)

/-! Gain scheduling (R188 to R190). -/

/-- The sum of ISTG over the fresh members (R169, R188). -/
def Chip.sumIstg (c : Chip) (n : Nat) : Int :=
  (((c.members n).map c.hslot).filter (·.fresh)).foldl (fun s h => s + h.istg) 0

/-- A band of thresholds with one hysteresis, upward at once and downward below it (R188). -/
def bandOf (ths : List Int) (hys x : Int) (band : Nat) : Nat :=
  let up := (ths.filter fun th => th ≤ x).length
  let dn := (ths.filter fun th => th - hys ≤ x).length
  if band < up then up else if dn < band then dn else band

/-- IF after this period's update (R188). -/
def Chip.iflNext (c : Chip) (n : Nat) (ifl : Int) : Int :=
  ifl + (((c.sumIstg n).natAbs : Int) - ifl).tdiv (2 ^ c.rf (Reg.lnFilt n) 0 3 : Nat)

/-- The current band (R188). -/
def Chip.ibNext (c : Chip) (n : Nat) (ifl : Int) (ib : Nat) : Nat :=
  let th (a lo : Nat) : Int := c.rf a lo 16 * 1000
  bandOf [th (Reg.lnIth01 n) 0, th (Reg.lnIth01 n) 16, th (Reg.lnIth2 n) 0] (th (Reg.lnIth2 n) 16) ifl ib

/-- The phase-count band: the members in the active-slot mask of the deadline (R188). -/
def Chip.nbNext (c : Chip) (n : Nat) (mask : BitVec 128) (nb : Nat) : Nat :=
  let k : Int := ((c.members n).filter fun k => mask.getLsbD k).length
  let th (i : Nat) : Int := byteOf (c.reg (Reg.lnNth n)) i
  bandOf [th 0, th 1, th 2] (th 3) k nb

/-- The RGNTAB entry of the three bands (R189). -/
def Chip.rgnEntry (c : Chip) (n ib tb nb : Nat) : Nat :=
  let i := ib * 16 + tb * 4 + nb
  fld (c.reg (Reg.lnRgntab (8 * n + i / 8))) (4 * (i % 8)) 4

/-! Coefficients (R185, R186, R189). -/

/-- Signed 64-bit saturation (R186). -/
def sat64 (x : Int) : Int := clampI (-(2 ^ 63)) (2 ^ 63 - 1) x

/-- Signed 32-bit saturation (R186). -/
def sat32 (x : Int) : Int := clampI (-(2 ^ 31)) (2 ^ 31 - 1) x

/-- Coefficient `i` of set `r`; B3 and A3 are 0 with FORM = 0 (R185). -/
def Chip.coef (c : Chip) (n r i : Nat) : Int :=
  if (i = 3 || i = 6) && !c.bit (Reg.lnCfg n) 1 then 0 else ((c.coefSet r).getD i 0).toInt

/-- b·e with 16 fractional bits: B × e × 2^(16 − BSH), rounded (R186). -/
def Chip.mulB (c : Chip) (n r i : Nat) (e : Int) : Int :=
  let bsh := fld ((c.coefSet r).getD 7 0) 0 5
  divHalfAway (c.coef n r i * e * 65536) (2 ^ bsh : Nat)

/-- a·u with 16 fractional bits: A × u × 2^−14, rounded (R186). -/
def Chip.mulA (c : Chip) (n r i : Nat) (u : Int) : Int := divHalfAway (c.coef n r (3 + i) * u) 16384

/-- The states formed from the histories with the coefficients of set `r` (R189). -/
def Chip.rescale (c : Chip) (n r : Nat) (s : Comp) : Comp :=
  let e (i : Nat) := s.e.getD (i - 1) 0
  let u (i : Nat) := s.u.getD (i - 1) 0
  let b (i j : Nat) := c.mulB n r i (e j)
  let a (i j : Nat) := c.mulA n r i (u j)
  { s with s1 := sat64 (b 1 1 + b 2 2 + b 3 3 - (a 1 1 + a 2 2 + a 3 3))
           s2 := sat64 (b 2 1 + b 3 2 - (a 2 1 + a 3 2))
           s3 := sat64 (b 3 1 - a 3 1) }

/-! What hardware sets at a start and at a resume (R168, R169, R309). -/

/-- The region that the table selects at this deadline for a loop with the given IF and bands (R169, R309). -/
def Chip.startBands (c : Chip) (n : Nat) (ifl : Int) (ib nb : Nat) (mask : BitVec 128) : Nat × Nat × Nat :=
  let ib := c.ibNext n (c.iflNext n ifl) ib
  let nb := c.nbNext n mask nb
  (c.rgnEntry n ib (c.loopSt n).tb nb, ib, nb)

/-- A loop's state as R169 sets it, from `old`. -/
def Chip.initComp (c : Chip) (n : Nat) (old : Comp) (mask : BitVec 128) : Comp :=
  let l := c.loopSt n
  let u := if c.dutyMode n then l.pol.imin else c.sumIstg n
  let (rgn, ib, nb) := c.startBands n old.ifl old.ib old.nb mask
  let r := if c.setValid rgn then rgn else old.rgn
  c.rescale n r { old with e := [0, 0, 0], u := [u, u, u], rgn := r, cand := rgn, qual := 0, init := true, brk := false,
                           brkN := 0, ib := ib, nb := nb, tot := u }

/-- ECHO of the latest accepted record. -/
def HubSlot.echo (s : HubSlot) : Nat := s.stat.toNat % 8

/-- The allocation states of a loop's members at a resume (R309), or all PARKED at a start (R225). -/
def Chip.initSlots (c : Chip) (n : Nat) (resume : Bool) (T : Tile) : Tile :=
  (c.members n).foldl (fun T k =>
    let e := (c.hslot k).echo
    T.putSlot k (if resume && (e = 1 || e = 4) && c.slotType k ≠ 2 then 2 else 0) 0) T

/-- A stopped loop's state: INIT clears and the demand is 0; the rest stands (R170, log 19). -/
def Comp.stop (s : Comp) : Comp := { s with init := false, brk := false, brkN := 0, tot := 0 }

/-- The deadline's hardware work on one loop's part of the shadow: dropped without a member, stopped without EN, set at a
start, and set for every enabled loop at a resume (R168 to R170, R309). -/
def Chip.initLoopShadow (c : Chip) (n : Nat) (resume : Bool) (T : Tile) : Tile :=
  let l := c.loopSt n
  let s := T.comp n
  if !l.on then T.putComp n s.stop
  else if !l.init then T.putComp n Comp.none
  else if l.needInit && !resume then (c.initSlots n false T).putComp n (c.initComp n Comp.none T.actmask)
  else if resume || !s.init then (c.initSlots n true T).putComp n (c.initComp n s T.actmask)
  else T

/-- The shadow of the computing tile at the uplink deadline (R193, R309). -/
def Chip.shadowStart (c : Chip) (t : Nat) (resume : Bool) : Chip :=
  let c := c.shadowLoad t
  let T := (List.range 4).foldl (fun T n => c.initLoopShadow n resume T) (c.tile t)
  let c := c.modTile t fun _ => T
  { c with loop.staged := (List.range 4).map fun n =>
      { (c.loop.comm.getD n {}) with rgn := (T.comp n).rgn } }

/-- A start whose selected set is invalid is refused: EN reads 0, CFGREF is set (R169). -/
def Chip.startRefused (c : Chip) (n : Nat) : Bool :=
  let mask := match c.policyTile with
    | some t => BitVec.ofNat 128 (c.bytesNat (loopRam t + mirrorOff + 0x180) 16)
    | none => 0
  !c.setValid (c.startBands n 0 0 0 mask).1

/-- The refused start (R169). -/
def Chip.refuseStart (c : Chip) (n : Nat) : Chip := (c.clrBit (Reg.lnCfg n) 0).setBit Reg.loopstat 3

/-- LOOP's part of an uplink deadline; `comp`: a tile computes in this period (R173, R191, R206, R214). -/
def Chip.loopDeadline (c : Chip) (comp : Bool) : Chip :=
  if !c.up .hub then c else
  let c := { c with loop.done := c.loop.comm,
                    loop.loops := c.loop.loops.mapIdx fun n (l : Loop) => { l with tb := c.therm.loopB.getD n 0 } }
  let c := c.coefCommit
  let c := match c.policyTile with
    | some t => { c with loop.select := (c.byte (loopRam t + 0x1C20)).toNat % 2 }
    | none => c
  let goals := c.goalsFor
  let c := if c.up .ifc then { c with spl.goals := c.spl.goals.filter fun g => !(g.tick < c.tg.tick) } else c
  let c := (List.range 4).foldl (fun c n =>
    let l := c.loopSt n
    let c := if c.loopEn n && l.startReq && !(c.members n).isEmpty && c.startRefused n then c.refuseStart n else c
    if c.loopEn n then c.loopRun n comp (goals n) else c.loopIdle n (goals n)) c
  let c := c.injDeadline
  { c with loop.loops := c.loop.loops.map fun (l : Loop) => if l.on then { l with icap := Chip.icapOf l } else l }

/-! The compensator of one loop (R186, R187, R195, R196). -/

/-- Braking after this deadline (R195). -/
def Chip.brakeStep (c : Chip) (n : Nat) (s : Comp) : Comp :=
  let l := c.loopSt n
  let low := 2 * (l.vmeas - l.tgt) < (c.rf (Reg.lnBrk n) 0 16 : Int)
  if s.brk then
    if low || orOne (c.rf (Reg.lnBrkn n) 0 4) ≤ s.brkN then { s with brk := false, brkN := 0 }
    else { s with brkN := s.brkN + 1 }
  else if l.brkdet then { s with brk := true, brkN := 1 }
  else s

/-- Bands, candidate and region in force of one computing period; the states are rescaled where the region or its
coefficients change (R188 to R191). -/
def Chip.schedule (c : Chip) (n : Nat) (mask : BitVec 128) (s : Comp) : Comp :=
  let ifl := c.iflNext n s.ifl
  let ib := c.ibNext n ifl s.ib
  let nb := c.nbNext n mask s.nb
  let cand := c.rgnEntry n ib (c.loopSt n).tb nb
  let q := if cand = s.rgn then 0 else if cand = s.cand then Nat.min 15 (s.qual + 1) else 1
  let s := { s with ifl := sat32 ifl, ib := ib, nb := nb, cand := cand, qual := q }
  if cand ≠ s.rgn && orOne (c.rf (Reg.lnFilt n) 8 4) ≤ q && c.setValid cand then
    c.rescale n cand { s with rgn := cand, qual := 0 }
  else if c.loop.changed.getLsbD s.rgn then c.rescale n s.rgn s
  else s

/-- The duty of R187 for a demand. -/
def Chip.dutyOf (c : Chip) (n : Nat) (tot : Int) : Int :=
  let v := if c.bit (Reg.lnCfg n) 6 then
      let vin := if c.bit (Reg.lnCfg n) 13 then (c.vertexResult (c.rf (Reg.lnCfg n) 16 5)).getD c.free.toInt
        else (c.loopSt 0).vmeas
      divHalfAway (tot * (c.reg (Reg.lnVffnom n)).toNat) (Max.max vin (c.reg (Reg.lnVffmin n)).toNat)
    else tot
  clampI 0 65535 v

/-- One loop's compensator in a computing period (R175, R186, R196). -/
def Chip.compensate (c : Chip) (n : Nat) (s : Comp) : Comp × LoopDone :=
  let l := c.loopSt n
  let d0 := c.loop.staged.getD n {}
  if l.fbstale then (s, { d0 with tot := s.tot, duty := c.dutyOf n s.tot, satHi := false, satLo := false }) else
  let elim : Int := c.rf (Reg.lnElim n) 0 16
  let dOut := if c.bit Reg.injctl 3 then l.d else 0
  let dErr := if c.bit Reg.injctl 3 then 0 else l.d
  let xe := clampI (-elim) elim (l.tgt - l.vmeas)
  let e := clampI (-elim) elim (xe + dErr)
  let b (i : Nat) := c.mulB n s.rgn i e
  let xu := sat32 (divHalfAway (sat64 (b 0 + s.s1)) 65536)
  let hi := if n = 0 then Min.min l.pol.imax l.icap else l.pol.imax
  let lo := Min.min l.pol.imin hi
  let x := xu + dOut + l.ff
  let tot := clampI lo hi x
  let u0 := if s.brk then clampI lo hi (c.sumIstg n) else c.fitted 32 (tot - l.ff - dOut)
  let a (i : Nat) := c.mulA n s.rgn i u0
  ({ s with s1 := sat64 (b 1 - a 1 + s.s2), s2 := sat64 (b 2 - a 2 + s.s3), s3 := sat64 (b 3 - a 3),
            e := e :: s.e.take 2, u := u0 :: s.u.take 2, tot := tot },
   { d0 with xe := xe, err := e, xu := xu, tot := tot, duty := c.dutyOf n tot, satHi := decide (hi < x),
             satLo := decide (x < lo) })

/-- One loop's gain scheduling, braking and compensator, on the shadow. -/
def Chip.loopCompute (c : Chip) (n : Nat) (T : Tile) : Tile × LoopDone :=
  let l := c.loopSt n
  let s := T.comp n
  let d0 := c.loop.staged.getD n {}
  if !(l.on && l.init && s.init) then (T, { d0 with tot := 0, duty := 0, satHi := false, satLo := false })
  else
    let (s, d) := c.compensate n (c.schedule n T.actmask (c.brakeStep n s))
    (T.putComp n s, d)

/-! Completion (R193, R206). -/

/-- What the mirror shows of a completed period: IF, region, candidate, braking, demand and error (R192, R206). -/
def LoopDone.collect (d : LoopDone) (s : Comp) : LoopDone :=
  { d with ifl := s.ifl, rgn := s.rgn, cand := s.cand, brkAct := s.brk, tot := s.tot, err := s.e.getD 0 0 }

/-- At completion: a change of region raises event 43, an invalid candidate sets RGNINV, and the values are staged
(R189, R190, R206). -/
def Chip.collectLoop (c : Chip) (t n : Nat) : Chip :=
  let s := (c.tile t).comp n
  let d := c.loop.staged.getD n {}
  if !(s.init && (c.loopSt n).on) then
    { c with loop.staged := c.loop.staged.set n { d with ifl := s.ifl, rgn := s.rgn, cand := s.cand, brkAct := false } }
  else
    let c1 := c.raiseIf (s.rgn ≠ d.rgn) 43
    let c1 := if c.setValid s.cand then c1 else c1.setBit (Reg.lnStat n) 20
    { c1 with loop.staged := c1.loop.staged.set n (d.collect s) }

end Sys2Proof.Machine
end

