-- ==== Sys2Proof/Machine/Alloc.lean ====
section
/-! DEFINITION. ALLOC: the prescribed allocation of each loop, its check, its commit at the chord, and its registers
(R222 to R254; log 24 to 28 for the readings the rules need). -/

namespace Sys2Proof.Machine

/-! Policy (R222 to R224). -/

/-- A loop's allocation fields (Table 7.1). -/
structure AllocPol where
  ichg     : Nat
  ksoc     : Nat
  nmin     : Nat
  damp     : Nat
  dmin     : Nat
  dmax     : Nat
  rectvmin : Nat
  rectpri  : Bool
  dithen   : Bool
  park     : Bool
  roten    : Bool
  spread   : Bool
  deriving DecidableEq, Repr

/-- The allocation fields of a bank; those of L0 only read as 0 for the others (R222). -/
def Chip.allocPol (c : Chip) (b n : Nat) : AllocPol :=
  let w (o : Nat) := c.bankWord b (0x80 + 0x20 * n + o)
  let dmax := fld (w 0x10) 16 16
  let f := w 0x18
  { ichg := if n = 0 then (w 0).toNat else 0, ksoc := fld (w 8) 0 16, nmin := fld (w 8) 16 8, damp := fld (w 0xC) 0 16,
    dmin := Nat.min (fld (w 0x10) 0 16) dmax, dmax := dmax, rectvmin := if n = 0 then fld (w 0x14) 0 24 else 0,
    rectpri := f.getLsbD 0, dithen := f.getLsbD 1, park := f.getLsbD 2, roten := f.getLsbD 3, spread := f.getLsbD 4 }

/-- The per-slot word of a bank (Table 7.3). -/
def Chip.slotWord (c : Chip) (b k : Nat) : Word := c.bankWord b (0x100 + 4 * k)

/-- Effective limits LP and LN (R224). -/
def Chip.effLimit (c : Chip) (kth lim : Nat) : Int := (Nat.min (lim * 100) c.fmax * kth / 128 : Nat)

/-! One member of a loop in a computing period. -/

/-- A member while its loop is allocated: state 0 PARKED, 1 WAKING, 2 ACTIVE, 3 SHEDDING (Table 7.4). -/
structure Mem1 where
  k     : Nat
  rect  : Bool
  brick : Bool
  st    : Nat
  cnt   : Nat
  held  : Bool := false
  avail : Bool := false
  able  : Bool
  elig  : Bool := false
  echo  : Nat
  lp    : Int
  ln    : Int
  kth   : Nat
  khl   : Nat
  soc   : Nat
  dith  : Bool
  last  : Int
  wasRun : Bool
  pos   : Bool
  r0    : Int
  runt  : Nat
  w     : Int := 0
  ref   : Int := 0
  d     : Int := 0
  shedNext : Bool := false
  parkedNow : Bool := false
  deriving DecidableEq, Repr

/-- The reference of the last record sent to a slot; 0 where that was a duty. -/
def HubSlot.sentRef (s : HubSlot) : Int := (recordRef s.sent).getD 0

/-- The REF of SHEDDING period `j` (R235). -/
def shedRef (r0 : Int) (shdn j : Nat) : Int := r0 * ((shdn : Int) - j) / shdn

/-- SHEDDING period `j`: its REF, or PARKED at the ramp's end (R235). -/
def Mem1.ramp (m : Mem1) (shdn j : Nat) : Mem1 :=
  if shdn ≤ j then { m with st := 0, cnt := 0, ref := 0, parkedNow := true }
  else { m with st := 3, cnt := j, ref := shedRef m.r0 shdn j }

/-- A member as the period finds it (R225, R227, R235, R240, R250). `first`: the first computing period after a takeover
or a resume. -/
def Chip.member (c : Chip) (b n : Nat) (P : AllocPol) (T : Tile) (first : Bool) (k : Nat) : Mem1 :=
  let s := c.hslot k
  let w := c.slotWord b k
  let kth := Nat.min 128 (fld w 16 8)
  let khl := Nat.min 128 (fld w 24 8)
  let lim := c.reg (Reg.slim k)
  let rect := c.slotType k = 2
  let shdn := orOne (c.rf (Reg.lnPhctl n) 8 8)
  let r0 := if first then s.sentRef else c.alloc.r0.getD k 0
  let m : Mem1 :=
    { k := k, rect := rect, brick := c.slotType k = 1, st := T.slotSt k, cnt := T.slotCnt k,
      able := w.getLsbD 14 && kth ≠ 0 && khl ≠ 0 && !s.fault, echo := s.echo,
      lp := c.effLimit kth (fld lim 0 16), ln := c.effLimit kth (fld lim 16 16), kth := kth, khl := khl,
      soc := Nat.min 10000 (fld w 0 14), dith := w.getLsbD 15, last := s.sentRef, wasRun := s.sentMode = 1,
      pos := s.fresh && 0 < s.istg, r0 := r0, runt := (c.reg (Reg.runt k)).toNat }
  if rect then
    let av := s.fresh && !s.fault && P.rectvmin ≤ s.vstg && kth ≠ 0
    { m with avail := av, st := if av then 2 else 0, cnt := 0 }
  else if !s.fresh then
    if 4 ≤ s.age then { m with st := 0, cnt := 0, held := true, parkedNow := m.st = 3 }
    else if m.st = 0 then { m with held := true } else { m with held := true, ref := m.last }
  else if m.st = 3 then m.ramp shdn (if first then 1 else m.cnt + 1)
  else m

/-- Σ REF of the members that are SHEDDING or held (R228). -/
def fixedRef (ms : List Mem1) : Int := ((ms.filter fun m => m.st = 3 || m.held).map (·.ref)).sum

/-- The limit in direction `s` (R226, R228). -/
def Mem1.lim (m : Mem1) (s : Int) : Int := if 0 < s then m.lp else m.ln

/-- Eligibility in direction `s`, and what follows from it: an ACTIVE slot starts SHEDDING, another is PARKED, and a
WAKING slot joins or gives up; a slot PARKED in a period is not added in it (R226, R235, log 26). -/
def Mem1.judge (m : Mem1) (s : Int) (shdn : Nat) : Mem1 × Bool :=
  if m.rect then ({ m with elig := m.avail }, false) else
  let e := m.able && 0 < m.lim s
  let m := { m with elig := e }
  if m.held || m.st = 3 then (m, false)
  else if m.st = 2 then (if e then m else { m with r0 := m.last }.ramp shdn 1, false)
  else if !e then ({ m with st := 0, cnt := 0 }, false)
  else if m.st = 1 then
    if m.echo = 1 || m.echo = 3 || m.echo = 4 then ({ m with st := 2, cnt := 0 }, false)
    else if 4 ≤ m.cnt + 1 then ({ m with st := 0, cnt := 0, held := true }, true)
    else ({ m with cnt := m.cnt + 1 }, false)
  else (m, false)

/-! Weights (R229). -/

/-- SOCM: the mean SOC of the ACTIVE BRICK members, if there is one (R229). -/
def socMean (ms : List Mem1) : Option Int :=
  let a := ms.filter fun m => m.brick && m.st = 2
  if a.isEmpty then none else some (((a.map fun m => (m.soc : Int)).sum).tdiv a.length)

/-- A member's weight (R229). -/
def Mem1.weigh (m : Mem1) (s : Int) (ksoc : Nat) (socm : Option Int) : Mem1 :=
  let f : Int := if m.brick then
      clampI 0 2048 (1024 + (s * ksoc * ((m.soc : Int) - socm.getD m.soc)).tdiv 100) else 1024
  { m with w := f * m.kth * m.khl / 1024 }

/-! Units (R249). -/

/-- The unit of phase count, split and dither: a slot, or with grouping two slots of one tier. -/
structure Unit1 where
  ks   : List Nat
  st   : Nat
  w    : Int
  lp   : Int
  ln   : Int
  runt : Nat
  echo : Bool
  brick : Bool
  dith : Bool
  r    : Int := 0
  sat  : Bool := false
  d    : Int := 0
  deriving DecidableEq, Repr

/-- A unit of one. -/
def Mem1.unit (m : Mem1) : Unit1 :=
  { ks := [m.k], st := m.st, w := m.w, lp := m.lp, ln := m.ln, runt := m.runt, echo := m.echo ≠ 0, brick := m.brick,
    dith := m.dith }

/-- Two slots as one unit: summed weights, twice the lesser limits; its joint state and run time: log 27 (R249). -/
def Unit1.join (a b : Unit1) : Unit1 :=
  let st := if a.st = 2 || b.st = 2 then 2 else if a.st = 3 || b.st = 3 then 3 else Nat.max a.st b.st
  { ks := a.ks ++ b.ks, st := st, w := a.w + b.w, lp := 2 * Min.min a.lp b.lp, ln := 2 * Min.min a.ln b.ln,
    runt := a.runt + b.runt, echo := a.echo && b.echo, brick := a.brick, dith := a.dith && b.dith }

/-- The units of eligible members that are not held, in slot order. -/
def unitsOf (grp : Bool) : List Mem1 → List Unit1
  | [] => []
  | [m] => [m.unit]
  | a :: b :: t =>
    if grp && a.k % 2 = 0 && b.k = a.k + 1 && a.rect == b.rect then a.unit.join b.unit :: unitsOf grp t
    else a.unit :: unitsOf grp (b :: t)

/-- The limit of a unit in direction `s`. -/
def Unit1.lim (u : Unit1) (s : Int) : Int := if 0 < s then u.lp else u.ln

/-- Σ of a field over units. -/
def sumU (f : Unit1 → Int) (us : List Unit1) : Int := (us.map f).sum

/-! The split (R230). -/

/-- One pass: shares of the free units, and those that exceed their limits. -/
def splitPass (target : Int) (us : List Unit1) : List Unit1 × Bool :=
  let free := us.filter fun u => !u.sat
  let fixed := sumU (·.r) (us.filter (·.sat))
  let W := sumU (·.w) free
  let R := target - fixed
  let us := us.map fun u => if u.sat then u else { u with r := if W = 0 then 0 else (R * u.w).tdiv W }
  let beyond (u : Unit1) := !u.sat && (u.lp < u.r || u.r < -u.ln)
  (us.map fun u => if beyond u then { u with r := clampI (-u.ln) u.lp u.r, sat := true } else u, us.any beyond)

/-- Up to `n` passes. -/
def splitPasses (target : Int) : Nat → List Unit1 → List Unit1
  | 0, us => us
  | n + 1, us => match splitPass target us with
    | (us, true) => splitPasses target n us
    | (us, false) => us

/-- The remainder goes to free units in ascending slot order (R230). -/
def splitRem : Int → List Unit1 → List Unit1
  | _, [] => []
  | rem, u :: t =>
    if u.sat then u :: splitRem rem t
    else
      let take := clampI (-u.ln - u.r) (u.lp - u.r) rem
      { u with r := u.r + take } :: splitRem (rem - take) t

/-- The split of a tier target (R230). -/
def split (target : Int) (us : List Unit1) : List Unit1 :=
  let us := splitPasses target 8 us
  splitRem (target - sumU (·.r) us) us

/-! Phase count (R234 to R237). -/

/-- tab(x) (R234). -/
def Chip.phTab (c : Chip) (n : Nat) (x : Int) : Nat :=
  let at_ (j : Nat) := c.reg (match n with | 0 => Reg.lnPhtab0 j | 1 => Reg.lnPhtab1 j | 2 => Reg.lnPhtab2 j | _ => Reg.lnPhtab3 j)
  (List.range 8).foldl (fun v j =>
    let w := at_ j
    if fld w 16 8 ≠ 0 && (fld w 0 16 * 1000 : Nat) ≤ x then fld w 16 8 else v) 0

/-- Insert into a list ordered by a strict relation. -/
def insertBy {α : Type} (before : α → α → Bool) (x : α) : List α → List α
  | [] => [x]
  | y :: t => if before x y then x :: y :: t else y :: insertBy before x t

/-- Sort by a strict relation. -/
def sortBy {α : Type} (before : α → α → Bool) (l : List α) : List α := l.foldr (insertBy before) []

/-- The first slot of a unit. -/
def Unit1.first (u : Unit1) : Nat := u.ks.headD 0

/-- Selection order for adding (R236). -/
def addBefore (a b : Unit1) : Bool :=
  if (a.st = 3) != (b.st = 3) then a.st = 3
  else if a.w ≠ b.w then b.w < a.w
  else if a.runt ≠ b.runt then a.runt < b.runt
  else a.first < b.first

/-- Selection order for shedding (R236). -/
def shedBefore (a b : Unit1) : Bool :=
  if a.w ≠ b.w then a.w < b.w else if a.runt ≠ b.runt then b.runt < a.runt else b.first < a.first

/-- How many adds make the capacity reach the requirement, from `k` on (R234). -/
def raiseAdds (s need : Int) : List Unit1 → Int → Nat → Nat
  | [], _, k => k
  | u :: t, cap, k => if need ≤ cap then k else raiseAdds s need t (cap + u.lim s) (k + 1)

/-- The state of the first `k` candidates once added (R235). -/
def addState (u : Unit1) : Nat := if u.st = 3 || u.echo then 2 else 1

/-! Dither (R244 to R246). -/

/-- The pairs as indices into the members e0 to e(m−1), lead first (R244). -/
def ditherPairs (m o : Nat) : List (Nat × Nat) :=
  if m < 2 then [] else (List.range (m / 2)).map fun i => ((o + 2 * i) % m, (o + 2 * i + 1) % m)

/-- The dither of each of the members `es`, 0 for an unpaired or withdrawn one (R245, R246). -/
def ditherOf (gen g dpsh : Nat) (P : AllocPol) (es : List Unit1) : List Unit1 :=
  let m := es.length
  let prs := ditherPairs m (g / 2 ^ dpsh % m)
  (prs.mapIdx fun i p => (i, p)).foldl (fun (us : List Unit1) (x : Nat × Nat × Nat) =>
    match es[x.2.1]?, es[x.2.2]? with
    | some a, some b =>
      let δ := Min.min 32767 (clampI P.dmin P.dmax (((P.damp * Nat.min a.r.natAbs b.r.natAbs / 1024 : Nat) : Int)))
      let d := if gen / 2 ^ (x.1 % 15) % 2 = 1 then δ else -δ
      let inside (u : Unit1) (d : Int) := -u.ln ≤ u.r + d && u.r + d ≤ u.lp
      if a.sat || b.sat || !inside a d || !inside b (-d) then us
      else (us.modify x.2.1 fun u => { u with d := d }).modify x.2.2 fun u => { u with d := -d }
    | _, _ => us) es

/-! One current-mode loop. -/

/-- What allocation of a loop decides: its members with state, REF and dither, and the totals. -/
structure Allocated where
  ms    : List Mem1
  done  : LoopDone
  pend  : AllocPend
  bf    : Int
  deriving DecidableEq, Repr

/-- Apply a unit's state, share and dither to one of its slots: the even slot takes the share and the dither rounded up
(R249). -/
def Unit1.onto (u : Unit1) (m : Mem1) : Mem1 :=
  if !u.ks.contains m.k then m else
  let m := { m with st := u.st }
  if u.st ≠ 2 then m
  else if u.ks.length = 2 then
    let up (x : Int) := (x + 1) / 2
    let hi := m.k % 2 = 0
    { m with ref := (if hi then up u.r + up u.d else u.r - up u.r + (u.d - up u.d)),
             d := if hi then up u.d else u.d - up u.d }
  else { m with ref := u.r + u.d, d := u.d }

/-- The requirement of a loop: its weighed members, RECT's request and the current asked of the battery (R228). -/
structure Demand where
  ms   : List Mem1
  pri  : Bool
  rectLp : Int
  s    : Int
  ir   : Int
  need : Int
  wakeFail : Bool

/-- Direction, eligibility and the requirement formed again (R226 to R229, R240). -/
def Chip.demand (c : Chip) (b n : Nat) (P : AllocPol) (T : Tile) (tot : Int) : Demand :=
  let first := (c.alloc.bf.getD n (some 0)).isNone
  let ms := (c.members n).map fun k => c.member b n P T first k
  let pri := n = 0 && P.rectpri
  let rectLp := if pri then ((ms.filter fun m => m.rect && m.avail).map (·.lp)).sum else 0
  let ir0 (F : Int) := clampI 0 rectLp (tot - F + P.ichg)
  let F0 := fixedRef ms
  let s : Int := if 0 ≤ tot - F0 - ir0 F0 then 1 else -1
  let js := ms.map fun m => m.judge s (orOne (c.rf (Reg.lnPhctl n) 8 8))
  let ms := js.map (·.1)
  let ms := ms.map fun m => m.weigh s P.ksoc (socMean ms)
  let F1 := fixedRef ms
  { ms := ms, pri := pri, rectLp := rectLp, s := s, ir := ir0 F1, need := ((tot - F1 - ir0 F1).natAbs : Int),
    wakeFail := js.any (·.2) }

/-- A unit is of RECT slots. -/
def Demand.isRect (D : Demand) (u : Unit1) : Bool := (D.ms.find? fun m => m.k = u.first).any (·.rect)

/-- The phase count of a loop: count now, thresholds, the units with those added ACTIVE or WAKING, and the unit a
rotation adds (R234 to R237). -/
structure Phase where
  us    : List Unit1
  rects : List Unit1
  heldOn : Nat
  cnt   : Nat
  cUp   : Nat
  cDn   : Nat
  bf    : Int
  quiet : Bool
  added : List Unit1
  rot   : Option Unit1

/-- c as the period leaves it: the units ACTIVE or WAKING after the adds, and the held members that are (R234, log 26). -/
def Phase.now (ph : Phase) : Nat := (ph.us.filter fun u => u.st = 1 || u.st = 2).length + ph.heldOn

/-- RUN-time order for a rotation in (R237). -/
def leastRun (a b : Unit1) : Bool := a.runt < b.runt || (a.runt = b.runt && a.first < b.first)

/-- RUN-time order for a rotation out (R237). -/
def mostRun (a b : Unit1) : Bool := b.runt < a.runt || (a.runt = b.runt && b.first < a.first)

/-- Phase count, adds and a rotation's first half (R234 to R237, R249). -/
def Chip.phase (c : Chip) (n : Nat) (P : AllocPol) (D : Demand) : Phase :=
  let all := unitsOf c.alloc.grp (D.ms.filter fun m => m.elig && !m.held && !m.parkedNow)
  let rects := all.filter D.isRect
  let us := all.filter fun u => !D.isRect u
  let heldOn := (D.ms.filter fun m => m.held && (m.st = 1 || m.st = 2)).length
  let heldEl := (D.ms.filter fun m => (m.held || m.parkedNow) && m.elig).length
  let act := us.filter (·.st = 2)
  let wak := us.filter (·.st = 1)
  let cands := sortBy addBefore (us.filter fun u => u.st = 0 || u.st = 3)
  let cnt := act.length + wak.length + heldOn
  let top := us.length + heldEl
  let bf : Int := match c.alloc.bf.getD n (some 0) with
    | none => D.need
    | some x => x + (D.need - x).tdiv (2 ^ c.rf (Reg.lnPhctl n) 0 4 : Nat)
  let up0 := Nat.max P.nmin (c.phTab n D.need)
  let cap0 := sumU (·.lim D.s) act + (if D.pri then 0 else sumU (·.lim D.s) rects)
  let base := up0 - cnt
  let cap := cap0 + sumU (·.lim D.s) (cands.take base)
  let adds := raiseAdds D.s D.need (cands.drop base) cap base
  let cUp := Nat.min top (if adds ≤ base then up0 else cnt + adds)
  let cDn := Nat.min top (Nat.max P.nmin (c.phTab n (bf + c.rf (Reg.lnPhctl n) 16 8 * 1000)))
  let nAdd := Nat.min cands.length (cUp - cnt)
  let quiet := wak.isEmpty && !(D.ms.any fun m => m.st = 3 || (m.held && m.st = 1))
  let rotDue := P.roten && c.rf Reg.rotiv 0 16 ≠ 0 && (c.alloc.rotDue.getD n false ||
    c.rf Reg.rotiv 0 16 * 100000000 ≤ c.alloc.rotTicks.getD n 0 + c.tg.period)
  let parked := (cands.drop nAdd).filter (·.st = 0)
  let rot := if rotDue && quiet && nAdd = 0 then (sortBy leastRun parked).head? else none
  let added := cands.take nAdd ++ rot.toList
  { us := us.map fun u => if added.any fun a => a.first = u.first then { u with st := addState u } else u
    rects := rects, heldOn := heldOn, cnt := cnt, cUp := cUp, cDn := cDn, bf := bf, quiet := quiet, added := added, rot := rot }

/-- What the tiers get: the loop's RECT and battery sums and their units with shares and dither (R228, R230, R244). -/
structure Tiers where
  irv : Int
  ib  : Int
  d   : Int
  tb  : List Unit1
  tr  : List Unit1

/-- The tiers' targets, split and dither; a SHEDDING slot made ACTIVE leaves F (log 25); no dither while braking
(Table 7.5). -/
def Chip.tiers (c : Chip) (n : Nat) (P : AllocPol) (D : Demand) (ph : Phase) (tot : Int) (brk : Bool) : Tiers :=
  let back := (ph.added.filter (·.st = 3)).flatMap (·.ks)
  let F2 := fixedRef (D.ms.filter fun m => !back.contains m.k)
  let tb := ph.us.filter (·.st = 2) ++ (if D.pri then [] else ph.rects)
  let ib := clampI (-(sumU (·.ln) tb)) (sumU (·.lp) tb) (tot - F2 - D.ir)
  let irv := clampI 0 D.rectLp (tot - F2 - ib)
  let tb := split ib (sortBy (fun a b => a.first < b.first) tb)
  let isD (u : Unit1) := n = 0 && P.dithen && !brk && u.brick && u.dith
  let es := ditherOf c.alloc.gen c.alloc.gcount (fld c.alloc.ctl 8 4) P (tb.filter isD)
  { irv := irv, ib := ib, d := F2 + irv + ib
    tb := tb.map fun u => (es.find? fun e => e.first = u.first).getD u
    tr := if D.pri then split irv ph.rects else [] }

/-- What leaves by shedding or by a rotation's second half, and the timers that follow (R235, R237). -/
structure Leaving where
  ks   : List Nat
  shd  : Nat
  rotSlot : Option Nat

/-- Shedding and the second half of a rotation (R235, R237). -/
def Chip.leaving (c : Chip) (n : Nat) (D : Demand) (ph : Phase) (t : Tiers) : Leaving :=
  let shd := if ph.cnt ≤ ph.cDn || D.ms.any (·.parkedNow) then 0 else c.alloc.shdTicks.getD n 0 + c.tg.period
  let due := shd ≠ 0 && (c.alloc.shdDue.getD n false || c.rf (Reg.lnShdly n) 0 16 * 100000 ≤ shd)
  let actNow := t.tb.filter fun u => !D.isRect u
  let still := ph.quiet && ph.added.isEmpty
  let pick := if ph.cDn < ph.cnt && due && still then (sortBy shedBefore actNow).head? else none
  let rotK := match ph.rot with | some u => some u.first | none => c.alloc.rotSlot.getD n none
  let rotIn := rotK.any fun k => actNow.any fun u => u.first = k
  let rotOut := if rotIn && pick.isNone then
      (sortBy mostRun (actNow.filter fun u => rotK ≠ some u.first)).head? else none
  { ks := (pick.toList ++ rotOut.toList).flatMap (·.ks), shd := shd, rotSlot := if rotOut.isSome then none else rotK }

/-- A member after allocation: its unit's outcome, its ramp's base, and whether it starts to shed next. -/
def Mem1.settle (m : Mem1) (all : List Unit1) (leaves : List Nat) : Mem1 :=
  let m' := match all.find? fun u => u.ks.contains m.k with | some u => u.onto m | none => m
  let m' := if m'.st = 1 && m.st ≠ 1 then { m' with cnt := 0, ref := 0 } else m'
  let m' := if m'.st = 2 then { m' with cnt := 0, r0 := if m'.held then m'.r0 else m'.ref } else m'
  if leaves.contains m.k then { m' with shedNext := true } else m'

/-- Allocation of one current-mode loop in a computing period (R225 to R246). -/
def Chip.allocLoop (c : Chip) (b n : Nat) (T : Tile) (tot : Int) (brk : Bool) (d0 : LoopDone) : Allocated :=
  let P := c.allocPol b n
  let D := c.demand b n P T tot
  let ph := c.phase n P D
  let t := c.tiers n P D ph tot brk
  let lv := c.leaving n D ph t
  let ms := D.ms.map fun m => m.settle (t.tb ++ t.tr ++ ph.us.filter (·.st ≠ 2)) lv.ks
  let capped := n = 0 && d0.satHi && decide ((c.loopSt n).icap < (c.loopSt n).pol.imax)
  let moving := (ms.filter fun m => m.st = 1 || m.st = 3).length
  { ms := ms
    done := { d0 with dtot := t.d, rtot := t.irv, btot := t.ib, c := ph.now, cUp := ph.cUp, cDn := ph.cDn,
                      moving := moving, bf := ph.bf }
    pend := { capActs := capped, shdTicks := lv.shd, rotated := ph.rot.isSome, rotSlot := lv.rotSlot,
              short := t.d != tot, wakeFail := D.wakeFail }
    bf := ph.bf }

/-! Command entries (R225, R239). -/

/-- The dead-time profile index of a slot: nibble of its profile's PpDTP for its band (R364). -/
def Chip.dtp (c : Chip) (k : Nat) : Nat := fld (c.reg (Reg.ppDtp (c.tsProf k))) (4 * (c.tslotSt k).band) 4

/-- The eight bytes of a command entry (R133, R225). -/
def Chip.entry (c : Chip) (k mode : Nat) (duty : Bool) (ref : Int) (phofs : Nat) (d : Int) : List Byte :=
  natBytes 1 (mode + 8 * b2n duty) ++ natBytes 3 (bitsI 24 ref) ++ natBytes 1 phofs ++ natBytes 1 (c.dtp k) ++
    natBytes 2 (bitsI 16 d)

/-- Store a command entry in a tile's loop RAM. -/
def Chip.putEntry (c : Chip) (t k : Nat) (bs : List Byte) : Chip := c.putBytes (cmdAddr t k) (bytesVal bs) 8

/-- PHOFS of a slot among those of its type that run (R239). -/
def phofsOf (on : List Nat) (k : Nat) : Nat :=
  match on.findIdx? (· = k) with
  | some i => 256 * i / on.length
  | none => 0

/-- A member's mode: RUN in every state but PARKED; a RECT member always; BRAKE where braking takes it (Table 7.4, R195,
R240). -/
def Mem1.mode (m : Mem1) (park brk : Bool) : Nat :=
  if m.st = 0 && !m.rect then (if park then 0 else 3) else if brk && m.wasRun && m.pos then 2 else 1

/-- The entries, states and weights of one allocated loop, into RAM and shadow. -/
def Chip.writeLoopOut (c : Chip) (t b n : Nat) (brk : Bool) (a : Allocated) : Chip :=
  let P := c.allocPol b n
  let on (rect : Bool) := (a.ms.filter fun m => m.rect == rect && m.st ≠ 0).map (·.k)
  let c := a.ms.foldl (fun c m =>
    let ph := if P.spread then phofsOf (on m.rect) m.k else 0
    let ref := if m.st = 1 || (m.st = 0) then 0 else m.ref
    let d := if m.st = 2 && !m.held then m.d else 0
    let c := c.putEntry t m.k (c.entry m.k (m.mode P.park brk) false ref ph d)
    let T := (c.tile t)
    let T := if m.rect then T.putSlot m.k 0 0
      else if m.shedNext then T.putSlot m.k 3 0 else T.putSlot m.k m.st m.cnt
    let T := T.shPut (0x220 + 2 * m.k) m.w.toNat 2
    (c.modTile t fun _ => T)) c
  let act := a.ms.foldl (fun (v : BitVec 128) (m : Mem1) => if m.st ≠ 0 then v ||| (1#128 <<< m.k) else v) 0
  let dith := a.ms.foldl (fun (v : BitVec 128) (m : Mem1) => if m.st = 2 && !m.held && m.d ≠ 0 then v ||| (1#128 <<< m.k) else v) 0
  let r0 := a.ms.foldl (fun (l : List Int) (m : Mem1) => l.set m.k m.r0) c.alloc.r0
  { c with
    alloc.r0 := r0
    alloc.bf := c.alloc.bf.set n (some a.bf)
    allocPend := c.allocPend.set n a.pend
    loop.staged := c.loop.staged.set n { a.done with act := act, dith := dith } }

/-- A loop that does not compute: every member PARKED and sent its park mode (Table 7.5). -/
def Chip.parkLoop (c : Chip) (t b n : Nat) : Chip :=
  let P := c.allocPol b n
  let d := c.loop.staged.getD n {}
  let c := (c.members n).foldl (fun c k =>
    let mode := if P.park then 0 else 3
    (c.putEntry t k (c.entry k mode false 0 0 0)).modTile t fun T => (T.putSlot k 0 0).shPut (0x220 + 2 * k) 0 2) c
  { c with allocPend := c.allocPend.set n {},
           loop.staged := c.loop.staged.set n
             { d with dtot := 0, rtot := 0, btot := 0, c := 0, cUp := 0, cDn := 0, moving := 0, act := 0, dith := 0 } }

/-- A duty-mode loop: every eligible member ACTIVE with DUTY = 1 (Table 7.5). -/
def Chip.dutyLoop (c : Chip) (t b n : Nat) (duty : Int) : Chip :=
  let P := c.allocPol b n
  let T0 := c.tile t
  let ms := (c.members n).map fun k => c.member b n P T0 false k
  let ok (m : Mem1) := m.able && 0 < m.lp
  let on := (ms.filter ok).map (·.k)
  let d := c.loop.staged.getD n {}
  let c := ms.foldl (fun c m =>
    let ph := if P.spread then phofsOf on m.k else 0
    let e := if ok m then c.entry m.k 1 true duty ph 0 else c.entry m.k (if P.park then 0 else 3) false 0 0 0
    (c.putEntry t m.k e).modTile t fun T => (T.putSlot m.k (if ok m then 2 else 0) 0).shPut (0x220 + 2 * m.k) 0 2) c
  let act := on.foldl (fun v k => v ||| (1#128 <<< k)) 0
  { c with allocPend := c.allocPend.set n {},
           loop.staged := c.loop.staged.set n
             { d with dtot := duty, rtot := 0, btot := 0, c := on.length, cUp := 0, cDn := 0, moving := 0, act := act,
                      dith := 0 } }

/-- LSTATE of a loop (Table 7.6). -/
def Chip.lstate (c : Chip) (n : Nat) : Word :=
  let a := c.alloc
  let p := c.allocPend.getD n {}
  let held := n = 0 && (a.rectRef &&& ~~~a.rectAv) ≠ 0
  let since := if p.capActs then 0 else Nat.min 255 (a.capCount + 1)
  pack [(0, b2n (n = 0 && (a.capAct || p.capActs))), (1, b2n held), (8, if n = 0 then since else 0),
    (16, Nat.min 0xFFFF (p.shdTicks / 100000))]

/-- The prescribed allocation of every loop (R222 to R249), after the compensators: `ds` as they staged them. -/
def Chip.allocate (c : Chip) (t : Nat) : Chip :=
  let b := loopRam t + 0xC00 + 0x400 * c.loop.select
  let T0 := c.tile t
  -- slots that are members of no loop leave every state (R227)
  let T1 := allSlots.foldl (fun T k =>
    if c.slotType k ≠ 0 && c.admitted k then T else (T.putSlot k 0 0).shPut (0x220 + 2 * k) 0 2) T0
  let c := c.modTile t fun _ => T1
  let c := (List.range 4).foldl (fun c n =>
    let l := c.loopSt n
    let s := T1.comp n
    let d := c.loop.staged.getD n {}
    if !(l.on && l.init && s.init) then c.parkLoop t b n
    else if c.dutyMode n then c.dutyLoop t b n d.duty
    else
      let c := c.writeLoopOut t b n s.brk (c.allocLoop b n T1 d.tot s.brk d)
      let c := c.setReg (Reg.lnDtot n) (wordI (c.loop.staged.getD n {}).dtot)
      { c with alloc.dtotSet := c.alloc.dtotSet.set n true }) c
  let mask := (List.range 4).foldl (fun m n => m ||| (c.loop.staged.getD n {}).act) (0#128)
  let T := (c.tile t).shPut 0x180 mask.toNat 16
  let T := (List.range 4).foldl (fun T n => T.shPut (0x190 + 4 * n) (c.lstate n).toNat 4) T
  c.modTile t fun _ => T

/-! The check, the deadline and the commit (R232, R238, R241 to R245). -/

/-- The sum of REF over a loop's entries with MODE = RUN and DUTY = 0 (R232). -/
def Chip.entrySum (c : Chip) (t n : Nat) : Int :=
  ((c.members n).map fun k =>
    let bs := c.byteList (cmdAddr t k) 6
    if (bs.getD 0 0).toNat % 16 = 1 then (recordRef bs).getD 0 else 0).sum

/-- A loop fails the sum check (R232). -/
def Chip.sumFails (c : Chip) (t n : Nat) : Bool :=
  let l := c.loopSt n
  let s := (c.tile t).comp n
  if !(l.on && l.init) || c.dutyMode n || s.brk then false
  else !c.alloc.dtotSet.getD n false || (c.reg (Reg.lnDtot n)).toInt ≠ c.entrySum t n

/-- The sum check at completion: SUMERR of each failing loop (R232). -/
def Chip.sumCheck (c : Chip) (t : Nat) : Chip :=
  (List.range 4).foldl (fun c n => if c.sumFails t n then c.setBit Reg.allocstat n else c) c

/-- RUNTk counts the periods whose accepted record shows ECHO = RUN (R238). -/
def Chip.runTime (c : Chip) (k : Nat) : Chip :=
  let s := c.hslot k
  if !(s.fresh && s.echo = 1) then c else
  let t := c.alloc.runTicks.getD k 0 + c.tg.period
  let c := { c with alloc.runTicks := c.alloc.runTicks.set k (t % 100000000) }
  if t < 100000000 then c
  else c.setReg (Reg.runt k) (word (satAdd 0xFFFFFFFF (c.reg (Reg.runt k)).toNat (t / 100000000)))

/-- A RECT member of L0 is available (R240). -/
def Chip.rectAvail (c : Chip) (b k : Nat) : Bool :=
  let s := c.hslot k
  c.slotType k = 2 && c.admitted k && s.fresh && !s.fault && (c.allocPol b 0).rectvmin ≤ s.vstg &&
    Nat.min 128 (fld (c.slotWord b k) 16 8) ≠ 0

/-- ALLOC's part of an uplink deadline: ALLOCCTL in force, run times, RECT availability, and event 61 in a computing
period (R238, R240, R241, R249, R252). -/
def Chip.allocDeadline (c : Chip) (comp : Bool) : Chip :=
  if !c.up .hub then c else
  let ctl := c.reg Reg.allocctl
  let c := { c with alloc.ctl := ctl, alloc.grp := ctl.getLsbD 0, alloc.dtotSet := List.replicate 4 false }
  let c := if c.hub.running then allSlots.foldl (fun c k => if c.addressed k then c.runTime k else c) c else c
  let av := match c.policyTile with
    | some t =>
      let b := c.bankAt t
      allSlots.foldl (fun v k => if c.rectAvail b k then v ||| (1#128 <<< k) else v) (0#128)
    | none => 0
  let memb := allSlots.foldl (fun v k => if c.slotType k = 2 && c.admitted k then v ||| (1#128 <<< k) else v) (0#128)
  let lost := comp && (c.alloc.rectRef &&& memb &&& ~~~av) ≠ 0
  let c := { c with alloc.rectAv := av }
  if lost then (c.setBit Reg.allocstat 9).raise 61 else c

/-- One advance of the dither generator (R245). -/
def lfsr15 (s : Nat) : Nat := (2 * s + (s / 2 ^ 14 + s / 2 ^ 13) % 2) % 2 ^ 15

/-- The generator's count of a completed period; an advance opens a chip at the second deadline from here (R245,
R261). -/
def Chip.ditherStep (c : Chip) : Chip :=
  let a := c.alloc
  let n := a.periods + 1
  let dchip := fld a.ctl 4 4
  if n < 2 ^ dchip then { c with alloc.periods := n }
  else
    let g := (a.gcount + 1) % 2 ^ 32
    { c with alloc.periods := 0, alloc.gen := lfsr15 a.gen, alloc.gcount := g,
             est.fe.opens := c.est.fe.opens ++ [(2, g)] }

/-- The power cap's state after a completed period (R243). -/
def Chip.capStepDone (c : Chip) : Chip :=
  let p := c.allocPend.getD 0 {}
  if p.capActs then
    { c with alloc.capAct := true, alloc.capCount := 0 }.raiseIf (!c.alloc.capAct) 59
  else
    let n := Nat.min 0xFFFF (c.alloc.capCount + 1)
    let off := c.alloc.capAct && orOne (c.rf Reg.caprel 0 16) ≤ n
    { c with alloc.capCount := n, alloc.capAct := c.alloc.capAct && !off }.raiseIf off 60

/-- One loop's pending allocation items are committed (R235, R237, R253). -/
def Chip.allocCommitLoop (c : Chip) (n : Nat) : Chip :=
  let p := c.allocPend.getD n {}
  let a := c.alloc
  let rotOn := c.rf Reg.rotiv 0 16 ≠ 0
  let c := { c with alloc := { a with
    shdTicks := a.shdTicks.set n p.shdTicks
    shdDue := if p.shdTicks = 0 then a.shdDue.set n false else a.shdDue
    rotTicks := a.rotTicks.set n (if p.rotated || !rotOn then 0 else a.rotTicks.getD n 0 + c.tg.period)
    rotDue := if p.rotated then a.rotDue.set n false else a.rotDue
    rotSlot := a.rotSlot.set n p.rotSlot } }
  let c := if p.short then c.setBit Reg.allocstat (4 + n) else c
  if p.wakeFail then c.setBit Reg.allocstat 11 else c

/-- ALLOC's part of the chord of a completed period (R245, R247, R248, R251): the masks are those of the tile's mirror and
command entries. -/
def Chip.allocCommit (c : Chip) (t : Nat) : Chip :=
  let c := (List.range 4).foldl Chip.allocCommitLoop c
  let T := c.tile t
  let dith := allSlots.foldl (fun v k =>
    if T.slotSt k = 2 && bytesVal (c.byteList (cmdAddr t k + 6) 2) ≠ 0 then v ||| (1#128 <<< k) else v) (0#128)
  let rect := allSlots.foldl (fun v k =>
    let bs := c.byteList (cmdAddr t k) 6
    if c.slotType k = 2 && 0 < (recordRef bs).getD 0 then v ||| (1#128 <<< k) else v) (0#128)
  let c := { c with alloc.actMask := T.actmask, alloc.dithMask := dith, alloc.rectRef := rect }
  c.capStepDone.ditherStep

/-- ROTATION_DUE: ROTIV seconds have passed since the previous rotation (R237). -/
def Chip.rotationDue (c : Chip) : Chip :=
  if c.up .hub && c.rf Reg.rotiv 0 16 ≠ 0 then { c with alloc.rotDue := List.replicate 4 true } else c

/-- SHDLY_EXPIRY of loop `n`: c_dn < c has held for SHDLY ms (R235). -/
def Chip.shdlyExpiry (c : Chip) (n : Nat) : Chip :=
  if c.up .hub && c.alloc.shdTicks.getD n 0 ≠ 0 then { c with alloc.shdDue := c.alloc.shdDue.set n true } else c

/-! ALLOC registers (R233, R245, R251 to R254). -/

/-- A word of a 128-bit mask. -/
def maskAt (m : BitVec 128) (off : Nat) : Word := word (m.toNat / 2 ^ (8 * off))

/-- A read of an ALLOC register. -/
def readAlloc (c : Chip) (a : Nat) : Word :=
  let A := c.alloc
  if a = Reg.allocstat then c.reg a ||| pack [(10, b2n A.grp), (8, b2n A.capAct)]
  else if a = Reg.dgen then pack [(0, A.gen), (16, A.gcount % 65536)]
  else if Reg.actmask 0 ≤ a && a < Reg.actmask 4 then maskAt A.actMask (a - Reg.actmask 0)
  else if Reg.dithact 0 ≤ a && a < Reg.dithact 4 then maskAt A.dithMask (a - Reg.dithact 0)
  else if Reg.rectav 0 ≤ a && a < Reg.rectav 4 then maskAt A.rectAv (a - Reg.rectav 0)
  else
    match (List.range 4).find? fun n => Reg.lnPhctl n ≤ a && a < Reg.lnPhctl n + 0x20 with
    | none => c.reg a
    | some n =>
      let d := c.loop.comm.getD n {}
      if a = Reg.lnRtot n then wordI d.rtot
      else if a = Reg.lnBtot n then wordI d.btot
      else if a = Reg.lnIcap n then wordI (c.loopSt n).icap
      else if a = Reg.lnCnt n then
        pack [(0, d.c % 256), (8, d.cUp % 256), (16, d.cDn % 256), (24, d.moving % 256)]
      else if a = Reg.lnBf n then wordI d.bf
      else c.reg a

/-- The active tile, which alone writes LnDTOT and FECHIP: only it, or a resuming tile, runs (R233, R262, R308). -/
def Chip.isActiveTile (c : Chip) (m : Master) : Bool :=
  match m with
  | .tile t => (c.tile t.val).running
  | _ => false

/-- A write to an ALLOC register; LnDTOT's writer is tested on the bus (R233). While GRPEN is 1 only the planner writes
GRP (R315). -/
def writeAlloc (c : Chip) (a : Nat) (v : Word) : Chip :=
  if a = Reg.dseed then { c.plainWrite a v with alloc.gen := orOne (fld v 0 15) }
  else if a = Reg.allocctl then
    let g := if c.bit Reg.agectl 2 then c.rf Reg.allocctl 0 1 else fld v 0 1
    c.plainWrite a (put v 0 1 g)
  else
    match (List.range 4).find? fun n => a = Reg.lnDtot n with
    | some n => { c.plainWrite a v with alloc.dtotSet := c.alloc.dtotSet.set n true }
    | none => c.plainWrite a v

end Sys2Proof.Machine
end

