-- ==== Sys2Proof/Machine/Age.lean ====
section
/-! DEFINITION. The margin planner: slack, windows, VCORE steps, the canary, and the AGE registers (R312 to R325;
log 30). -/

namespace Sys2Proof.Machine

/-- VFLOOR. -/
def Chip.vfloor (c : Chip) : Nat := c.rf Reg.vlim 0 10

/-- VCEIL. -/
def Chip.vceil (c : Chip) : Nat := c.rf Reg.vlim 16 10

/-- The compute window in force. -/
def Chip.window (c : Chip) : Nat := c.tg.chord - c.tg.updl

/-- The slack of a chord is recorded (R312). -/
def Chip.recordSlack (c : Chip) (slack : Nat) : Chip :=
  let a := c.age
  let c := c.setReg Reg.slkmin (word (Nat.min (c.rf Reg.slkmin 0 16) slack))
  let on := a.winOn && a.periods < orOne (c.rf Reg.plancfg 0 16)
  { c with age := { a with slkLast := slack, slkW := c.window,
                           periods := if on then a.periods + 1 else a.periods,
                           least := if on then Nat.min a.least slack else a.least } }

/-- The planner's window starts afresh. -/
def Age.restart (a : Age) : Age := { a with winOn := true, periods := 0, least := 0xFFFF, bandEnd := false }

/-- tgt of a die band; below 64 reads 64 (R313). -/
def Chip.slackTarget (c : Chip) (band : Nat) : Nat := Nat.max 64 (fld (c.reg Reg.slktgt) (8 * band) 8)

/-- The canary prediction one step lower (R316). -/
def Chip.canaryPasses (c : Chip) (tc tgt : Nat) : Bool :=
  let a := c.age
  let w := c.window
  let pred : Int := (256 * ((w * a.can0 : Nat) - (tc * a.can1 : Nat) : Int)) / ((w * a.can0 : Nat) : Int)
  a.canAge.any (· ≤ orOne (c.rf Reg.cancfg 0 8)) && a.can0 ≠ 0 && a.can0 ≠ 0xFFFF &&
    ((tgt + c.rf Reg.plancfg 16 8 : Nat) : Int) ≤ pred

/-- The advice of R314 for the least slack `smin`. -/
def Chip.advise (c : Chip) (smin tgt : Nat) : Chip :=
  let tc := c.window - smin
  let ch := c.tg.updl + (tc * 256 + (256 - tgt) - 1) / (256 - tgt)
  let per := Nat.max (c.tg.period + ch - c.tg.chord) (Nat.max 1000 (400 + 75 * c.chainLen))
  ({ c with age.advChord := ch % 32768, age.advPer := per % 32768 }.setBit Reg.agestat 3).raise 125

/-- A window below its target (R314). -/
def Chip.belowTarget (c : Chip) (smin tgt : Nat) : Chip :=
  let c := { c with age.high := 0 }
  if c.age.vcore < c.vceil then { c with age.stepReq := 5, age.low := 0 }.raise 124
  else if c.bit Reg.agectl 2 && !c.bit Reg.allocctl 0 then
    { (c.setBit Reg.allocctl 0) with age.grpSet := true, age.low := 0 }.raise 124
  else
    let c := { c with age.low := Nat.min 255 (c.age.low + 1) }
    if orOne (c.rf Reg.esccfg 0 8) ≤ c.age.low && !c.bit Reg.agestat 3 then c.advise smin tgt else c

/-- A window above its target and the hysteresis (R316). -/
def Chip.aboveTarget (c : Chip) (smin tgt : Nat) (band : Bool) : Chip :=
  let c := { c with age.low := 0, age.high := Nat.min 255 (c.age.high + 1) }
  if band || c.age.inhibit || c.age.high < orOne (c.rf Reg.plancfg 24 8) then c
  else if c.age.grpSet then
    { (c.clrBit Reg.allocctl 0) with age.grpSet := false, age.high := 0 }.raise 124
  else if c.bit Reg.agectl 1 && c.vfloor < c.age.vcore then
    (if c.canaryPasses (c.window - smin) tgt then { c with age.stepReq := -5, age.high := 0 }.raise 124
     else c.setBit Reg.agestat 5)
  else c

/-- The evaluation of a window; `band`: a change of die band ended it (R313). A window without a chord is not
evaluated. -/
def Chip.evaluate (c : Chip) (band : Bool) : Chip :=
  let a := c.age
  if a.periods = 0 || c.window = 0 then { c with age := a.restart } else
  let smin := Nat.min a.least c.window
  let q := Nat.min 255 (256 * smin / c.window)
  let die := c.dieBandSeen
  let tgt := c.slackTarget die
  let c := { c with age := { a with winMin := q, winTgt := tgt, winBand := die, canWins := a.canWins + 1,
                                    canAge := a.canAge.map (· + 1) } }
  let c := if q < tgt then c.belowTarget smin tgt
    else if tgt + c.rf Reg.plancfg 16 8 ≤ q then c.aboveTarget smin tgt band
    else { c with age.low := 0, age.high := 0 }
  { c with age := if c.age.stepReq = 0 then c.age.restart else { c.age with winOn := false, bandEnd := false } }

/-- EVALUATION_WINDOW_END: EVALN periods have passed in the window (R313). -/
def Chip.windowEnds (c : Chip) : Chip :=
  if c.up .hub && c.bit Reg.agectl 0 && c.age.winOn && orOne (c.rf Reg.plancfg 0 16) ≤ c.age.periods then
    c.evaluate false
  else c

/-- A pending VCORE step is applied; VCORE never leaves VFLOOR to VCEIL (R318). -/
def Chip.applyStep (c : Chip) : Chip :=
  let a := c.age
  if a.stepReq = 0 then c else
  let v := (clampI c.vfloor c.vceil ((a.vcore : Int) + a.stepReq)).toNat
  { c with age := { a with vcore := v, stepReq := 0, settling := true, settleAt := c.tg.tick + 5000, winOn := false,
                           up := if a.vcore < v then satAdd 0xFFFF a.up 1 else a.up,
                           down := if v < a.vcore then satAdd 0xFFFF a.down 1 else a.down } }

/-- AGE's part of a vertex: a step, the end of a window by the die band, a window's start (R313, R318). -/
def Chip.ageVertex (c : Chip) : Chip :=
  if !c.up .hub then c else
  let on := c.bit Reg.agectl 0
  let c := if on && c.age.bandEnd && c.age.winOn && c.age.stepReq = 0 then c.evaluate true else c.applyStep
  let c := { c with age.bandEnd := false }
  if on && !c.age.winOn && !c.age.settling && c.age.stepReq = 0 then { c with age := c.age.restart } else c

/-- VCORE_SETTLED (R318). -/
def Chip.vcoreSettled (c : Chip) : Chip :=
  if c.up .hub && c.age.settling then { c with age.settling := false } else c

/-- INHIBIT_EXPIRY (R319). -/
def Chip.inhibitExpiry (c : Chip) : Chip :=
  if c.up .hub && c.age.inhibit then { c.elapseTick c.age.inhAt with age.inhibit := false } else c

/-- A self-diagnosis failure: a step up at the next vertex, and INHIBIT (R319). -/
def Chip.ageFailure (c : Chip) : Chip :=
  if !c.bit Reg.agectl 0 then c else
  let c := if c.age.vcore < c.vceil then { c with age.stepReq := 5 } else c
  { c with age.inhibit := true, age.inhAt := c.tg.tick + c.rf Reg.esccfg 8 8 * 100000000 }

/-- The canary at an uplink deadline: two runs in consecutive periods on the standby tile (R317). -/
def Chip.canaryDeadline (c : Chip) : Chip :=
  let a := c.age
  if !(c.bit Reg.agectl 3 && c.fo.fo == .dual) then { c with age.canRun := 0 }
  else if a.canRun = 3 then { c with age.canRun := 2, age.canDone := false }
  else if a.canRun = 0 && orOne (c.rf Reg.cancfg 0 8) ≤ a.canWins then
    { c with age.canRun := 1, age.canDone := false, age.canWins := 0 }
  else c

/-- CANARY_COMPLETE after `ticks` from the uplink deadline (R317). -/
def Chip.canaryComplete (c : Chip) (ticks : Nat) : Chip :=
  let a := c.age
  if !(c.up .hub && (a.canRun = 1 || a.canRun = 2) && !a.canDone && c.tg.instant == .deadline &&
      ticks ≤ c.window) then c
  else
    let c := c.elapseTick (c.tg.vtx + c.tg.updl + ticks)
    if a.canRun = 1 then { c with age.can0 := ticks, age.canDone := true }
    else { c with age.can1 := ticks, age.canDone := true, age.canAge := some 0 }

/-- The canary at the chord: one that has not completed is stopped (R317). -/
def Chip.canaryChord (c : Chip) : Chip :=
  let a := c.age
  let c := if (a.canRun = 1 || a.canRun = 2) && !a.canDone then c.setBit Reg.agestat 4 else c
  if a.canRun = 1 then { c with age.canRun := 3, age.can0 := if a.canDone then a.can0 else 0xFFFF }
  else if a.canRun = 2 then
    { c with age.canRun := 0, age.can1 := if a.canDone then a.can1 else 0xFFFF, age.canAge := some 0 }
  else c

/-- A read of an AGE register (Table 9.9, Table 9.10). -/
def readAge (c : Chip) (a : Nat) : Word :=
  let g := c.age
  if a = Reg.agestat then
    c.reg a ||| pack [(6, b2n g.inhibit), (2, b2n g.grpSet), (1, b2n (g.vcore = c.vfloor)), (0, b2n (g.vcore = c.vceil))]
  else if a = Reg.vcoreReg then word g.vcore
  else if a = Reg.slklast then pack [(0, g.slkLast), (16, g.slkW)]
  else if a = Reg.slkwin then pack [(0, g.winMin), (8, g.winTgt), (16, g.winBand)]
  else if a = Reg.canres then pack [(0, g.can0), (16, g.can1)]
  else if a = Reg.advper then word g.advPer
  else if a = Reg.advchord then word g.advChord
  else if a = Reg.moves then pack [(0, g.up), (16, g.down)]
  else c.reg a

/-- A write to an AGE register; VCORE never leaves VFLOOR to VCEIL (R318, R324). -/
def writeAge (c : Chip) (a : Nat) (v : Word) : Chip :=
  if a = Reg.vlim then
    let f := clampN 700 1000 (fld v 0 10)
    let t := clampN 700 1000 (fld v 16 10)
    if fld v 16 10 < fld v 0 10 then c
    else { c.setReg a (pack [(0, f), (16, t)]) with age.vcore := clampN f t c.age.vcore }
  else c.plainWrite a v

end Sys2Proof.Machine
end

