-- ==== Sys2Proof/Machine/Est.lean ====
section
/-! DEFINITION. The EST block: charge counters, voltage limits, telemetry gaps, the front end's chips, and its registers
(R255 to R263, R267, R272, R287 to R290; log 29). -/

namespace Sys2Proof.Machine

/-- One slot of EST. -/
def Chip.eslotSt (c : Chip) (k : Nat) : EstSlot := c.est.slots.getD k {}

/-- Change one slot. -/
def Chip.modEslot (c : Chip) (k : Nat) (f : EstSlot → EstSlot) : Chip := { c with est.slots := c.est.slots.modify k f }

/-- ESLOTk.NCELL (R289). -/
def Chip.ncell (c : Chip) (k : Nat) : Nat := c.rf (Reg.eslot k) 22 5

/-- ESLOTk.CHEM (R289). -/
def Chip.chem (c : Chip) (k : Nat) : Nat := c.rf (Reg.eslot k) 20 2

/-- A counter moves to `q`, saturating with QSAT (R256). -/
def Chip.setQ (c : Chip) (k : Nat) (q : Int) : Chip :=
  let s := sat64 q
  let c := c.modEslot k fun e => { e with q := s }
  if s = q then c else c.setBit Reg.eststat 2

/-- The charge of one deadline (R256). -/
def Chip.chargeStep (c : Chip) (k : Nat) : Int :=
  let s := c.hslot k
  let i : Int := if s.fresh || s.age ≤ 3 then s.istg else 0
  let dq := i * c.tg.period
  if i < 0 then (dq * (c.reg (Reg.etas (c.chem k))).toNat).tdiv 65536 else dq

/-- The span without an accepted record (R257). -/
def Chip.gapStep (c : Chip) (k : Nat) : Chip :=
  if (c.hslot k).fresh then c.modEslot k fun e => { e with gap := none }
  else
    let first := ((c.eslotSt k).gap).getD c.tg.tick
    let c := c.modEslot k fun e => { e with gap := some first }
    if first + 100000000 ≤ c.tg.tick then c.setBit (Reg.lgap (k / 32)) (k % 32) else c

/-- Voltage-limit detection of one slot (R272, Table 8.3). -/
def Chip.limitsStep (c : Chip) (k : Nat) : Chip :=
  let s := c.hslot k
  let n := c.ncell k
  if !s.fresh || n = 0 then c else
  let e := c.eslotSt k
  let vc : Int := s.vstg + (s.istg * c.rf (Reg.eslot k) 0 20).tdiv 100000
  let vd : Int := n * c.rf (Reg.veods (c.chem k)) 0 16
  let vq : Int := n * c.rf (Reg.veocs (c.chem k)) 0 16
  let re : Int := n * c.rf Reg.estqual 16 16
  let dCount := c.bit Reg.estctl 1 && 0 < s.istg && vc ≤ vd
  let cCount := c.bit Reg.estctl 2 && s.istg < 0 && vq ≤ vc
  let nd := orOne (c.rf Reg.estqual 0 8)
  let nc := orOne (c.rf Reg.estqual 8 8)
  let d := if dCount then e.eodC + 1 else 0
  let q := if cCount then e.eocC + 1 else 0
  let dHit := e.eodC < nd && nd ≤ d
  let cHit := e.eocC < nc && nc ≤ q
  let c := c.modEslot k fun e =>
    { e with eodC := d, eocC := q, eod := (e.eod || dHit) && !(vd + re ≤ vc), eoc := (e.eoc || cHit) && !(vc ≤ vq - re) }
  (c.raiseIf dHit 85 k).raiseIf cHit 86 k

/-- A cell report joins the rotation in hand; a rotation of every cell in order gives its spread (R123, R284). -/
def BackSlot.cellStep (b : BackSlot) (n : Nat) (s : HubSlot) : BackSlot :=
  if !s.cellNew || fld s.cell 0 8 = 0xFF then b else
  let i := fld s.cell 0 5
  let l := if i = 0 then [fld s.cell 8 16] else if i = b.cells.length then b.cells ++ [fld s.cell 8 16] else []
  if l.length = n && n ≠ 0 then
    { b with cells := [], spread := some (l.foldl Nat.max 0 - l.foldl Nat.min 65535) }
  else { b with cells := l }

/-- One estimated slot at the deadline; it counts only while the control period runs (R256). -/
def Chip.estSlot (c : Chip) (k : Nat) : Chip :=
  let c := if c.periodRuns && c.bit Reg.estctl 0 then c.setQ k ((c.eslotSt k).q - c.chargeStep k) else c
  let c := { c with est.back := c.est.back.modify k fun b => b.cellStep (c.ncell k) (c.hslot k) }
  (c.gapStep k).limitsStep k

/-- A pending adjustment lands before the deadline's integration (R258). -/
def Chip.adjustStep (c : Chip) : Chip :=
  match c.est.adj with
  | some (k, d) => { (c.setQ k ((c.eslotSt k).q + d)) with est.adj := none }
  | none => c

/-! Chips of the front end (R260 to R263). -/

/-- The front end's chip at a deadline: a chip whose deadlines are all past without its record is late; an advance opens
its chip at its second deadline (R261). -/
def Chip.chipDeadline (c : Chip) : Chip :=
  let f := c.est.fe
  let late := match f.chip with | some h => if h.left = 0 then some h else f.late | none => f.late
  let chip := match f.chip with | some h => if h.left = 0 then none else some { h with left := h.left - 1 } | none => none
  let opens := f.opens.map fun p => (p.1 - 1, p.2)
  let len := 2 ^ fld c.alloc.ctl 4 4
  match opens.find? fun p => p.1 = 0 with
  | some p =>
    let h : FeChip := { g := p.2, len := len, left := len - 1, bad := f.badNext }
    { c with est.fe := { opens := opens.filter fun q => q.1 ≠ 0, chip := some h, late := late, badNext := false } }
  | none => { c with est.fe := { f with opens := opens, chip := chip, late := late } }

/-- EST's part of an uplink deadline (R255 to R258, R261, R272). -/
def Chip.estDeadline (c : Chip) : Chip :=
  if !c.up .hub then c else
  let c := c.adjustStep
  let c := allSlots.foldl (fun c k => if c.estimated k then c.estSlot k else c) c
  c.chipDeadline

/-- The estimator-output address of a slot's record (R23, R261). -/
def chipAddr (t k : Nat) : Nat := loopRam t + 0x1800 + 8 * k

/-- One period's sample of a slot, from the commands its node applied (R261). -/
def Chip.feSample (c : Chip) (t k : Nat) (x : FeSlot) : FeSlot :=
  let s := c.hslot k
  let st := (c.tile t).slotSt k
  { v := x.v + s.vstg, i := x.i + s.istg, ok := x.ok && s.fresh,
    dith := x.dith && c.bytesNat (cmdAddr t k + 6) 2 ≠ 0, act := x.act && (st = 2 || st = 3) }

/-- The record of one slot (Table 8.1); without a sample its means are free (log 4). -/
def Chip.chipRecord (c : Chip) (h : FeChip) (k : Nat) : Nat :=
  let x := h.slots.getD k {}
  let n : Int := h.count
  let v := if h.count = 0 then c.free.toInt else x.v.tdiv n
  let i := if h.count = 0 then c.free.toInt else x.i.tdiv n
  let valid := x.ok && h.count = h.len && !h.bad
  bitsI 24 v + 2 ^ 24 * (b2n valid + 2 * b2n x.dith + 4 * b2n x.act) + 2 ^ 32 * bitsI 32 i

/-- A chip's records, and then FECHIP (R261). -/
def Chip.writeChip (c : Chip) (t : Nat) (h : FeChip) : Chip :=
  let c := allSlots.foldl (fun c k =>
    if c.estimated k then c.putBytes (chipAddr t k) (c.chipRecord h k) 8 else c) c
  c.setReg Reg.fechip (word (h.g % 65536))

/-- The prescribed front end of one computing period, before the commands are written (R260, R261, R263). -/
def Chip.frontEnd (c : Chip) (t : Nat) : Chip :=
  let f := c.est.fe
  let on := (c.bankWord (loopRam t + 0xC00 + 0x400 * c.loop.select) 0x300).getLsbD 0
  let done := f.chip.any (·.left = 0)
  if !on then { c with est.fe := { f with chip := if done then none else f.chip, late := none } } else
  let c := match f.late with
    | some h => c.writeChip t { h with bad := true }
    | none => c
  let c := { c with est.fe := { f with late := none } }
  match f.chip with
  | none => c
  | some h =>
    let h := { h with count := h.count + 1,
                      slots := h.slots.mapIdx fun k x => if c.estimated k then c.feSample t k x else x }
    if done then { (c.writeChip t h) with est.fe := { f with late := none, chip := none } }
    else { c with est.fe := { f with late := none, chip := some h } }

/-- A takeover makes the chip in progress and the next one invalid (R263, Table 9.4). -/
def Chip.feTakeover (c : Chip) : Chip :=
  { c with est.fe := { c.est.fe with chip := c.est.fe.chip.map fun h => { h with bad := true }, badNext := true } }

/-! EST registers (R287 to R290). -/

/-- A mask word of 32 slots. -/
def Chip.slotMask (c : Chip) (i : Nat) (f : EstSlot → Bool) : Word := maskWord fun j => f (c.eslotSt (32 * i + j))

/-- The slot of a QLO address. -/
def qSlot (a : Nat) : Nat := (a - Reg.qlo 0) / 8

/-- A read of an EST register. -/
def readEst (c : Chip) (m : Master) (a : Nat) : Word :=
  if a = Reg.eststat then c.reg a ||| pack [(0, b2n c.est.adj.isSome)]
  else if Reg.eodmask 0 ≤ a && a < Reg.eodmask 4 then c.slotMask ((a - Reg.eodmask 0) / 4) (·.eod)
  else if Reg.eocmask 0 ≤ a && a < Reg.eocmask 4 then c.slotMask ((a - Reg.eocmask 0) / 4) (·.eoc)
  else if Reg.qlo 0 ≤ a && a < Reg.qlo 128 then
    (if (a - Reg.qlo 0) % 8 = 0 then wordI (c.eslotSt (qSlot a)).q else c.shadow m a)
  else c.reg a

/-- QADJCMT.GO (R258). -/
def Chip.qadjCommit (c : Chip) : Chip :=
  if c.est.adj.isSome then c.setBit Reg.eststat 1
  else
    let k := c.rf Reg.qadjslot 0 7
    let d := signed 64 ((c.reg Reg.qadjlo).toNat + 2 ^ 32 * (c.reg Reg.qadjhi).toNat)
    if c.periodRuns then { c with est.adj := some (k, d) } else c.setQ k ((c.eslotSt k).q + d)

/-- A write to an EST register; FECHIP's writer is tested on the bus (R262). -/
def writeEst (c : Chip) (a : Nat) (v : Word) : Chip :=
  if a = Reg.qadjcmt then (if v.getLsbD 0 then c.qadjCommit else c)
  else if a = Reg.evraise then
    (if fld v 0 5 ≤ 4 then c.raise (87 + fld v 0 5) (fld v 8 7) else c)
  else if (List.range 3).any fun s => a = Reg.etas s then c.plainWrite a (word (Nat.min 65536 (fld v 0 17)))
  else if Reg.eslot 0 ≤ a && a < Reg.eslot 128 then c.plainWrite a (put v 22 5 (Nat.min 24 (fld v 22 5)))
  else c.plainWrite a v

end Sys2Proof.Machine
end

