-- ==== Sys2Proof/Machine/Tile.lean ====
section
/-! DEFINITION. The tiles and the failover controller: starts, completion, self-diagnosis failures, the chord, takeover
and resume, load checks, and the tile-control registers (R172, R193, R197, R291 to R310, R321 to R323; log 7, 23, 31). -/

namespace Sys2Proof.Machine

/-- The other tile. -/
def otherTile (t : Nat) : Nat := 1 - t

/-- TILECTL.AUTORES. -/
def Chip.autores (c : Chip) : Bool := c.bit Reg.tilectl 0

/-! Resets and failures. -/

/-- A tile is reset: event 4, RSTCAUSE, READY and standby-ready cleared; the domain is held until it is out of reset
(R302). Its loop RAM is kept (R49). -/
def Chip.tileReset (c : Chip) (t : Nat) : Chip :=
  { c with tiles := c.tiles.set t {}, pwr.held := c.pwr.held.set (tileDom t) true,
           pwr.rstCause := c.pwr.rstCause ||| (1#32 <<< (9 + t)) }.raise 4

/-- A takeover is pending, or a resume is in progress (R296, R310). -/
def Chip.pendingRun (c : Chip) : Bool := c.fo.fo == .takeover || c.fo.resPend

/-- The engine's step count at a failure: free for a prescribed program in one run, whose instructions the spec does not
give (R292, log 4, 23). -/
def Chip.failSteps (c : Chip) (t : Nat) : Nat :=
  let T := c.tile t
  if T.stepped || !(T.running || T.doneTick.isSome) then Nat.min 0xFFFF T.steps else c.free.toNat % 65536

/-- What recognising a failure does in its tick: the engine stops, the shadow is dropped, LOOP discards its items, the
cause is recorded, event 38, or 40 for a pending takeover or resume, and the planner answers (R292, R294, R296, R319). -/
def Chip.tileFail (c : Chip) (t cause : Nat) : Chip :=
  let steps := c.failSteps t
  let c := c.useFree.modTile t fun T => { T with running := false, doneTick := none, failed := some cause, shadow := [] }
  let c := c.setReg (Reg.tnDiag t) (pack [(0, cause), (16, steps)])
  let c := { c with fo.lastCause := cause }
  ((c.raise (if c.pendingRun then 40 else 38)).loopDiscard).ageFailure

/-- A check of Table 9.1 fails on a tile whose engine runs, from the uplink deadline to the chord (R291, R292). -/
def Chip.selfDiagnosis (c : Chip) (t cause : Nat) : Chip :=
  if c.up .hub && (c.tile t).running && c.tg.instant == .deadline then c.tileFail t cause else c

/-! Completion (R172, R193, R232). -/

/-- The completion of a tile: the sum check, and the shadow replaces the region (R193, R206, R232, R291). -/
def Chip.tileComplete (c : Chip) (t : Nat) : Chip :=
  let c := (List.range 4).foldl (fun c n => c.collectLoop t n) c
  let bad := (List.range 4).any (c.sumFails t)
  let c := c.sumCheck t
  if bad then c.tileFail t 4
  else (c.shadowCommit t).modTile t fun T => { T with running := false, doneTick := some c.tg.tick }

/-- An address of the telemetry region, the selected bank or the shadow's region with bad parity (R291, R435). -/
def Chip.programParity (c : Chip) (t : Nat) : Option Nat :=
  let spans := [(loopRam t, 0x800), (loopRam t + 0xC00 + 0x400 * c.loop.select, 0x400)]
  if (c.tile t).shadowBad then some (loopRam t + mirrorOff)
  else (spans.find? fun p => c.parityBad p.1 p.2).map (·.1)

/-- The prescribed loop program in one run: front end, compensators, allocation (R175, R186, R225, R261; log 23). -/
def Chip.prescribed (c : Chip) (t : Nat) : Chip :=
  let c := c.frontEnd t
  let c := (List.range 4).foldl (fun c n =>
    let (T, d) := c.loopCompute n (c.tile t)
    { (c.modTile t fun _ => T) with loop.staged := c.loop.staged.set n d }) c
  (c.allocate t).useFree

/-- END on a running engine (R172). -/
def Chip.tileEnd (c : Chip) (t : Nat) : Chip :=
  if !((c.tile t).running && c.up (tileDom t)) then c
  else if (c.tile t).stepped then c.tileComplete t
  else
    match c.programParity t with
    | some a => (c.parityError (if t = 0 then .tile 0 else .tile 1) a).tileFail t 2
    | none => (c.prescribed t).tileComplete t

/-! The uplink deadline (R193, R295, R308, R309). -/

/-- Hardware's check of the new active tile's mirror region (R295). -/
def Chip.mirrorMatches (c : Chip) (t : Nat) : Bool :=
  let a := loopRam t + mirrorOff
  !c.parityBad a 0x400 && c.bytesNat (a + 0x3FC) 4 = (check (c.mirrorBytes t)).toNat &&
    c.fo.lastDone = some (c.bytesNat (a + 0x320) 4)

/-- MIRROR_CHECK_DONE: between the chord and the next deadline of a takeover (R295). -/
def Chip.mirrorCheck (c : Chip) : Chip :=
  if c.up .hub && c.fo.fo == .takeover && c.fo.firstRun && c.fo.mirrorOk.isNone then
    { c with fo.mirrorOk := some (c.mirrorMatches c.fo.act.val) }
  else c

/-- The tile a resume begins on, if one begins or is in progress (R308). -/
def Chip.resumeTile (c : Chip) : Option Nat :=
  if c.fo.fo ≠ .hold || c.holdreq || !(c.autores || c.fo.resumeReq || c.fo.resPend) then none
  else if c.fo.resPend && (c.tile c.fo.act.val).ready then some c.fo.act.val
  else if (c.tile 0).ready then some 0
  else if (c.tile 1).ready then some 1
  else none

/-- Which tile starts the loop program in this period. -/
def Chip.starter (c : Chip) : Option Nat :=
  if c.holdreq then none
  else match c.fo.fo with
    | .hold => c.resumeTile
    | .takeover => if c.fo.firstRun && c.fo.mirrorOk = some false then none else some c.fo.act.val
    | _ => some c.fo.act.val

/-- READY follows the load check and the worst case in force (R45, R303). -/
def Chip.refreshReady (c : Chip) : Chip :=
  let fits := c.fo.wcs ≤ 4 * (c.tg.chord - c.tg.updl)
  { c with tiles := c.tiles.map fun (T : Tile) => { T with ready := T.loaded && fits, sby := T.sby && T.loaded && fits } }

/-- The failover controller at the deadline, before the blocks latch: WCS, a takeover's check, a resume's beginning
(R295, R308, R321). -/
def Chip.failoverDeadline (c : Chip) : Chip :=
  let c := { c with fo.wcs := c.rf Reg.wcsr 0 16 }.refreshReady
  let c := c.mirrorCheck
  match c.resumeTile with
  | some t => { c with fo.act := Fin.ofNat 2 t, fo.resPend := true, fo.resumeReq := false, fo.firstRun := true,
                       alloc.bf := List.replicate 4 none }
  | none => c

/-- A takeover whose mirror check fails: cause 7 at the deadline (R295). -/
def Chip.mirrorFailure (c : Chip) : Chip :=
  if c.fo.fo == .takeover && c.fo.firstRun && c.fo.mirrorOk = some false && !c.holdreq then
    c.tileFail c.fo.act.val 7
  else c

/-- A tile's engine starts (R172, R193, R398); one whose domain is down does not acknowledge its start (R291). -/
def Chip.tileStart (c : Chip) (t : Nat) : Chip :=
  if !c.up (tileDom t) then c.modTile t fun T => { T with running := true, stepped := true } else
  let c := c.shadowStart t c.fo.resPend
  let c := c.modTile t fun T =>
    { T with running := true, stepped := false, startTick := c.tg.tick, steps := 0, doneTick := none, failed := none,
             pc := 0x2000, rpt := [], g := List.replicate 16 0, p := List.replicate 4 false, a := List.replicate 4 0,
             vmask := 0, vg0 := 0, vn := 16 }
  { c with fo.firstRun := false }

/-! The chord (R197, R293 to R299, R304, R306, R310). -/

/-- The mirror copy to the other tile, if it may receive one; it becomes standby-ready, and the scrubber may read the
mirror regions (R21, R304, R435, R467). -/
def Chip.mirrorCopy (c : Chip) (t : Nat) : Chip :=
  let o := otherTile t
  if !(c.up (tileDom o) && (c.tile o).ready) then c else
  let a := loopRam t + mirrorOff
  if c.parityBad a 0x400 then (c.parityError .hub a).modTile o fun T => { T with sby := false }
  else
    let c := c.putBytes (loopRam o + mirrorOff) (c.bytesNat a 0x400) 0x400
    { c.modTile o fun T => { T with sby := true } with memc.mirOpen := true }

/-- The other tile becomes the active one: what restarts in LOOP, ALLOC, the front end and the back end (R294, R301). -/
def Chip.takeover (c : Chip) (t : Nat) : Chip :=
  let c := { c with fo.act := Fin.ofNat 2 (otherTile t), fo.fo := .takeover, fo.consec := 0, fo.firstRun := true,
                    fo.mirrorOk := none, alloc.bf := List.replicate 4 none, est.takeover := true }
  (c.modTile (otherTile t) fun T => { T with sby := false }).captureTakeover.feTakeover

/-- The end of a pending takeover or resume, and DUAL, at the chord of a completed period (R296, R299, R310). -/
def Chip.foCompleted (c : Chip) (t : Nat) : Chip :=
  let sby := (c.tile (otherTile t)).sby
  match c.fo.fo with
  | .takeover => { c with fo.fo := if sby then .dual else .single }.raise 39
  | .hold => if c.fo.resPend then { c with fo.fo := if sby then .dual else .single, fo.resPend := false } else c
  | .single => if sby then { c with fo.fo := .dual } else c
  | .dual => if sby then c else { c with fo.fo := .single }

/-- A completed period's chord (R197, R294, R298, R304). -/
def Chip.chordCompleted (c : Chip) (t : Nat) : Chip :=
  let c := (c.pmonAdd { sel := 13 }).loopCommit.allocCommit t
  let c := { c with fo.consec := 0, fo.lastDone := some c.tg.perseq }
  if c.holdreq then c else
  let swap := c.fo.swapReq && c.fo.fo == .dual
  let c := { (c.mirrorCopy t) with fo.swapReq := false }
  if swap && (c.tile (otherTile t)).sby then (c.takeover t).modTile t fun T => { T with sby := true }
  else c.foCompleted t

/-- An overrun: the engine is stopped, the shadow and LOOP's items are dropped, and it is counted; the third in
succession is a failure (R197). -/
def Chip.chordOverrun (c : Chip) (t : Nat) : Chip :=
  let c := ((c.pmonAdd { sel := 14 }).count Reg.ovrcnt 0 16 1).raise 36
  let c := { c with fo.consec := c.fo.consec + 1 }
  if c.fo.consec < 3 then
    (c.modTile t fun T => { T with running := false, doneTick := none, shadow := [] }).loopDiscard
  else (c.raise 37).tileFail t 3

/-- HOLD without a tile that commands (R296, R297, R306). -/
def Chip.enterHold (c : Chip) : Chip :=
  { c with fo.fo := .hold, fo.resPend := false, fo.resumeReq := false }

/-- The chord of a period with a self-diagnosis failure of tile `t`; FAILCNT counts a takeover failure with each event 40
(R294, R296, R297, R310; log 31). -/
def Chip.chordFailed (c : Chip) (t : Nat) : Chip :=
  let st := c.fo.fo
  let c := c.tileReset t
  if st == .takeover || st == .hold then (c.count Reg.failcnt 16 16 1).enterHold
  else
    let c := c.count Reg.failcnt 0 16 1
    if (c.tile (otherTile t)).sby then c.takeover t
    else ((c.count Reg.failcnt 16 16 1).enterHold).raise 40

/-- What the period's tile did by the chord tick (R34, R197). -/
inductive Outturn where
  | idle
  | completed (t : Nat) (slack : Nat)
  | overrun (t : Nat)
  | failed (t : Nat)

/-- The outcome of this period at its chord. -/
def Chip.outturn (c : Chip) : Outturn :=
  let t := c.fo.act.val
  let T := c.tile t
  let at_ := c.tg.vtx + c.tg.chord
  if T.failed.isSome then .failed t
  else match T.doneTick with
    | some d => if d < at_ then .completed t (at_ - d) else .overrun t
    | none => if T.running then .overrun t else .idle

/-- The source of the records, and LOOP's and the failover controller's part of the chord (R197, R293 to R299, R306). -/
def Chip.chordTiles (c : Chip) : Source × Chip :=
  let (out, c) := match c.outturn with
    | .completed t s =>
      (match c.chordSource (if c.holdreq then .holdover else .tile t) with
       | (.hold, c) => (Outturn.overrun t, c)
       | (_, c) => (Outturn.completed t s, c))
    | o => (o, c)
  let slack := match out with | .completed _ s => some s | .idle => none | _ => some 0
  let c := match slack with | some s => c.recordSlack s | none => c
  let c := c.canaryChord
  let (src, c) := match out with
    | .completed t _ => (Source.tile t, c.chordCompleted t)
    | .overrun t =>
      let c := c.chordOverrun t
      (Source.hold, if (c.tile t).failed.isSome then c.chordFailed t else c)
    | .failed t => (Source.hold, c.chordFailed t)
    | .idle => (Source.hold, c.loopDiscard)
  let ovr : Bool := match out with
    | .overrun _ => true
    | .failed _ => !c.holdreq && c.fo.fo != .hold
    | _ => false
  let c := { c with loop.ovr := ovr }
  if c.holdreq then
    (.holdover, { c.enterHold with tiles := c.tiles.map fun (T : Tile) => { T with sby := false, running := false } })
  else if c.fo.fo == .hold then (.holdover, c) else (src, c)

/-- The chord of the tiles and the hub (R134, R197, R294, R306). -/
def Chip.chordStep (c : Chip) : Chip :=
  if !c.up .hub then c else
  let (src, c) := c.chordTiles
  let c := (c.hubChord src).2
  { c with tiles := c.tiles.map fun (T : Tile) => { T with doneTick := none, failed := none }
           fo.holdoverSent := c.hub.running && (match src with | .holdover => true | _ => false) }

/-! The load check (R303). -/

/-- TnARM (R303). -/
def Chip.armTile (c : Chip) (t : Nat) : Chip :=
  let T := c.tile t
  let active := c.fo.fo ≠ .hold && c.fo.act.val = t
  if !c.up (tileDom t) || T.loadBusy || active then c
  else c.modTile t fun T => { T with loadBusy := true }

/-- LOAD_CHECK_DONE (R303). -/
def Chip.loadCheckDone (c : Chip) (t : Nat) : Chip :=
  if !(c.up .hub && (c.tile t).loadBusy) then c else
  let n := Nat.min 8192 (c.rf (Reg.tnPlen t) 0 14)
  let a := loopRam t + 0x2000
  let ok := !c.parityBad a n && check (c.byteList a n) = c.reg (Reg.tnPchk t)
  let c := c.modTile t fun T =>
    { T with loadBusy := false, loaded := ok, plen := n, ready := T.ready && ok, sby := T.sby && ok }
  if ok then (if c.fo.wcs ≤ 4 * (c.tg.chord - c.tg.updl) then c.modTile t fun T => { T with ready := true } else c)
  else c.setBit Reg.tilestat 9

/-! Tile-control registers (R321 to R323). -/

/-- The code of a failover state (Table 9.2). -/
def FoState.code : FoState → Nat
  | .dual => 0 | .single => 1 | .takeover => 2 | .hold => 3

/-- A read of a tile-control register. -/
def readTileCtl (c : Chip) (a : Nat) : Word :=
  if a = Reg.tilestat then
    let t (i : Nat) := c.tile i
    c.reg a ||| pack [(16, c.fo.lastCause), (10, b2n c.fo.resPend), (6, b2n (t 1).sby), (5, b2n (t 0).sby),
      (4, b2n (t 1).ready), (3, b2n (t 0).ready), (2, c.fo.act.val), (0, c.fo.fo.code)]
  else c.reg a

/-- A write to TILECTL (R298, R308, R322). -/
def Chip.writeTilectl (c : Chip) (v : Word) : Chip :=
  let c := c.plainWrite Reg.tilectl v
  let c := if !v.getLsbD 1 then c
    else if c.fo.fo == .dual then { c with fo.swapReq := true } else c.setBit Reg.tilestat 8
  if v.getLsbD 2 && c.fo.fo == .hold then { c with fo.resumeReq := true } else c

/-- A write to a tile-control register. -/
def writeTileCtl (c : Chip) (a : Nat) (v : Word) : Chip :=
  if a = Reg.tilectl then c.writeTilectl v
  else if a = Reg.tnArm 0 then (if v.getLsbD 0 then c.armTile 0 else c)
  else if a = Reg.tnArm 1 then (if v.getLsbD 0 then c.armTile 1 else c)
  else c.plainWrite a v

end Sys2Proof.Machine
end

