-- ==== Sys2Proof/Machine/Adc.lean ====
section
/-! DEFINITION. Analog acquisition: the reference, the two converters and their requests, corrected results and their
delivery, calibration, and the ADC registers (R493 to R512; log 35). Ticks are those of the time grid. -/

namespace Sys2Proof.Machine

/-- One converter. -/
def Chip.conv (c : Chip) (k : Nat) : Converter := c.adc.conv.getD k {}

/-- Change one converter. -/
def Chip.modConv (c : Chip) (k : Nat) (f : Converter → Converter) : Chip := { c with adc.conv := c.adc.conv.modify k f }

/-- ADCCTL.ENk. -/
def Chip.adcEn (c : Chip) (k : Nat) : Bool := c.bit Reg.adcctl k

/-! The reference (R494 to R497). -/

/-- REFUV (R494). -/
def Chip.refuv (c : Chip) : Nat :=
  match c.rf Reg.adcref 0 2 with
  | 1 => (c.reg Reg.extuv).toNat
  | 2 => (c.reg Reg.ratuv).toNat
  | _ => 2500000

/-- SETTLED clears: running conversions complete unsettled, and a running calibration is abandoned (R495, R508). -/
def Chip.unsettle (c : Chip) : Chip :=
  let ran := c.adc.conv.any (·.calRun)
  let c := { c with
    adc.settled := false
    adc.conv := c.adc.conv.map fun v =>
      { v with busy := v.busy.map fun x => { x with settled := false }, calRun := false, calReq := v.calReq && !v.calRun } }
  if ran then c.setBit Reg.adcstat 8 else c

/-- Ticks for which the selected reference settles (R495). -/
def Chip.settleTicks (c : Chip) : Nat := if c.rf Reg.adcref 0 2 = 0 then 20000 else orOne (c.rf Reg.adcref 16 16) * 100

/-- A write to ADCREF (R494, R495, R497). -/
def Chip.writeAdcref (c : Chip) (v : Word) : Chip :=
  let armed := (List.range 8).any fun n => c.bit (Reg.cmpCfg n) 2
  if fld v 0 2 = 3 || (armed && !(c.gate.gst matches .open_ | .check)) then c.setBit Reg.adcstat 4
  else
    let moved := fld v 0 2 ≠ c.rf Reg.adcref 0 2
    let c := c.plainWrite Reg.adcref v
    if moved then { c.unsettle with adc.settleAt := some c.tg.tick, adc.refLost := false, adc.inRange := 0 }
    else if c.adc.first && !c.adc.settled then { c with adc.settleAt := some c.tg.tick }
    else c

/-- The reference has been selected for its settling time (R495). -/
def Chip.referenceSettled (c : Chip) : Chip :=
  match c.up .afe, c.adc.settleAt with
  | true, some t =>
    let c := c.elapseTick (t + c.settleTicks)
    { c with adc.settleAt := none, adc.first := false, adc.settled := !c.adc.refLost }
  | _, _ => c

/-- The comparison with the bandgap, every 100 000 ticks (R496). -/
def Chip.referenceCheck (c : Chip) (inRange : Bool) : Chip :=
  if !c.up .afe then c else
  let c := c.elapseTick (c.adc.checkAt + 100000)
  let c := { c with adc.checkAt := c.tg.tick }
  if !inRange then
    let was := c.adc.refLost
    let c := ({ c.unsettle with adc.refLost := true, adc.inRange := 0 }).setBit Reg.adcstat 7
    c.raiseIf (!was) 107
  else if !c.adc.refLost then c
  else if c.adc.inRange = 0 then { c with adc.inRange := 1 }
  else { c with adc.refLost := false, adc.inRange := 0, adc.settled := c.adc.settleAt.isNone }

/-! The vertex set (R502, R503). -/

/-- The vertex set, ascending, each channel once. -/
def Chip.vertexChannels (c : Chip) : List Nat :=
  let wanted (ch : Nat) : Bool := (List.range 4).any fun n =>
    c.loopEn n && ((!c.bit (Reg.lnCfg n) 7 && c.rf (Reg.lnCfg n) 8 5 = ch) ||
      (c.dutyMode n && c.bit (Reg.lnCfg n) 6 && c.bit (Reg.lnCfg n) 13 && c.rf (Reg.lnCfg n) 16 5 = ch))
  if c.up .hub then (List.range 24).filter wanted else []

/-- The set is recomputed at each uplink deadline (R502). -/
def Chip.adcDeadline (c : Chip) : Chip := if c.up .afe then { c with adc.vtxNext := c.vertexChannels } else c

/-- A converter takes vertex conversions. -/
def Chip.convServes (c : Chip) (k : Nat) : Bool := c.adcEn k && !(c.conv k).calRun

/-- A converter's share of a vertex set (R502). -/
def Chip.vertexShare (c : Chip) (set : List Nat) (k : Nat) : List Nat :=
  if !c.convServes k then []
  else if !c.convServes (1 - k) then set
  else (set.zipIdx.filter fun p => p.2 % 2 = k).map (·.1)

/-- A conversion of a lower class that starts now would still run in the vertex tick of a converter with a share
(R503). -/
def Chip.heldOff (c : Chip) (k : Nat) : Bool :=
  c.periodRuns && c.vertexShare c.adc.vtxNext k ≠ [] && c.nextVertex < c.tg.tick + 100

/-! Which conversion starts (R503 to R507, Table 16.1). -/

/-- A conversion starts. -/
def Chip.convStart (c : Chip) (k ch : Nat) (cls : ConvClass) : Chip :=
  c.modConv k fun v => { v with busy := some (Conversion.mk ch cls c.tg.tick c.refuv c.adc.settled) }

/-- The first injected request that converter `k` may serve: its place in the queue and itself. -/
def Chip.injFor (c : Chip) (k : Nat) : Option (InjReq × Nat) := c.adc.injQ.zipIdx.find? fun p => p.1.conv = 0 || p.1.conv = k + 1

/-- Converter `k` serves an injected request (R504, R507). -/
def Chip.injStart (c : Chip) (k : Nat) (r : InjReq × Nat) : Chip :=
  let c := { c with adc.injQ := c.adc.injQ.eraseIdx r.2 }
  (c.modConv k fun v => { v with calWait := if r.1.conv = k + 1 then v.calWait - 1 else v.calWait }).convStart k r.1.ch .inject

/-- A waiting calibration begins: the vertex share passes to the other converter; without a settled reference it is
abandoned (R507, R508). -/
def Chip.calStart (c : Chip) (k : Nat) : Chip :=
  if !c.adc.settled then (c.modConv k fun v => { v with calReq := false, calSeq := false }).setBit Reg.adcstat 8
  else c.modConv k fun v => { v with calRun := true, calStep := 0, calSeq := false }

/-- Converter `k`'s calibration may begin. -/
def Chip.calDue (c : Chip) (k : Nat) : Bool :=
  (c.conv k).calReq && (c.conv k).calWait = 0 && !((c.conv k).calSeq && (c.conv 0).calReq)

/-- The regular list of a converter: a new pass starts once it is due, and the next entry is converted (R505). -/
def Chip.regular (c : Chip) (k : Nat) : Chip :=
  let ctl := c.reg (Reg.rseqCtl k)
  if !ctl.getLsbD 8 then c else
  let v := c.conv k
  let c := if v.passEnd && v.passAt + fld ctl 16 16 ≤ c.tg.tick then
      c.modConv k fun v => { v with passEnd := false, pos := 0, passAt := c.tg.tick }
    else c
  let v := c.conv k
  if v.passEnd || fld ctl 0 4 < v.pos then c else
  let w := c.reg ((if k = 0 then Reg.rseqE0 else Reg.rseqE1) (v.pos / 4))
  (c.modConv k fun v => { v with pos := v.pos + 1 }).convStart k (fld w (8 * (v.pos % 4)) 5) .regular

/-- An idle converter starts what is next in Table 16.1's order. -/
def Chip.convPick (c : Chip) (k : Nat) : Chip :=
  let v := c.conv k
  if !c.up .afe || v.busy.isSome || v.calRun || !c.adcEn k then c
  else match v.vtx with
    | ch :: rest => (c.modConv k fun v => { v with vtx := rest }).convStart k ch .vertex
    | [] =>
      if c.calDue k then c.calStart k
      else if c.heldOff k then c
      else match c.injFor k with
        | some r => if v.calReq && r.1.conv = 0 then c else c.injStart k r
        | none => if v.calReq then c else c.regular k

/-- Both converters, ADC0 first (R504). -/
def Chip.adcKick (c : Chip) : Chip := (c.convPick 0).convPick 1

/-- The vertex: the set takes effect, is dealt, and its first conversions start (R502). -/
def Chip.adcVertex (c : Chip) : Chip :=
  if !c.up .afe then c else
  let set := if c.periodRuns then c.adc.vtxNext else []
  let c := { c with adc.vtxSet := c.adc.vtxNext, adc.vtxGot := [] }
  let conv := c.adc.conv.mapIdx fun k (v : Converter) => { v with vtx := c.vertexShare set k }
  ({ c with adc.conv := conv }).adcKick

/-! Results (R498 to R501). -/

/-- The corrected result of a calibrated code (R498). -/
def Chip.corrected (c : Chip) (ch code refuv : Nat) : Word :=
  let gain := (c.reg (Reg.chGain ch)).toInt
  let ofs := (c.reg (Reg.chOfs ch)).toInt
  wordI (clampI (-(2 ^ 31)) (2 ^ 31 - 1) (ofs + divHalfAway ((code : Int) * refuv * gain) (2 ^ 40)))

/-- A result replaces the one before it, which reads in this tick still return (R499). -/
def Result.put (r : Result) (lo hi : Word) (now : Nat) : Result :=
  { lo := lo, hi := hi, cnt := (r.cnt + 1) % 256, at_ := now, plo := r.lo, phi := r.hi }

/-- What a read of a result pair returns (R499). -/
def Result.read (r : Result) (now : Nat) : Word × Word := if r.cnt ≠ 0 && r.at_ = now then (r.plo, r.phi) else (r.lo, r.hi)

/-- The blocks that watch a channel take its result, in the completion tick (R327, R377, R383, R500). -/
def Chip.deliver (c : Chip) (ch : Nat) (v : Word) : Chip :=
  ((if ch ≤ 3 then c.gateResult ch v.toInt else c)).seqResult ch v.toInt

/-- CONVERSION_COMPLETE on converter `k` with its calibrated code (R493, R498 to R504). -/
def Chip.conversionComplete (c : Chip) (k : Nat) (code : BitVec 16) : Chip :=
  match c.up .afe, (c.conv k).busy with
  | true, some x =>
    let c := c.elapseTick (x.start + 100)
    let c := c.modConv k fun v =>
      { v with busy := none, passEnd := v.passEnd || (x.cls == .regular && c.rf (Reg.rseqCtl k) 0 4 < v.pos) }
    let n := code.toNat
    let lo := c.corrected x.ch n x.refuv
    let ok := x.settled && c.adc.settled
    let isVtx := x.cls == .vertex && c.tg.vtx ≤ x.start && c.tg.tick < c.tg.vtx + c.tg.updl
    let st := [(0, n), (24, b2n !ok), (25, b2n isVtx), (26, k), (27, b2n (n = 0 || n = 65535))]
    let r := c.adc.results.getD x.ch {}
    let r := r.put lo (pack ((16, (r.cnt + 1) % 256) :: st)) c.tg.tick
    let c := { c with adc.results := c.adc.results.set x.ch r }
    let c := if x.cls == .inject then { c with adc.inj := c.adc.inj.put lo (pack ((16, x.ch) :: st)) c.tg.tick } else c
    let c := if x.cls == .vertex && !isVtx then c.setBit Reg.adcstat 6 else c
    let c := if ok && isVtx then { c with adc.vtxGot := c.adc.vtxGot ++ [(x.ch, lo.toInt)] } else c
    (if ok then c.deliver x.ch lo else c).adcKick
  | _, _ => c

/-- DIE_CONVERSION: THERM's schedule, one sensor on each enabled converter, with a settled reference (R362, R493,
R500). -/
def Chip.dieSensors (c : Chip) (s0 s1 : Int) : Chip :=
  if !c.up .afe then c else
  let c := c.elapseTick (c.adc.dieAt + 100000)
  let c := { c with adc.dieAt := c.tg.tick }
  if !c.adc.settled || !(c.adcEn 0 || c.adcEn 1) then c
  else c.dieConversion (if c.adcEn 0 then s0 else c.therm.s0) (if c.adcEn 1 then s1 else c.therm.s1)

/-! Requests (R504 to R508). -/

/-- A write to INJREQ (R504); one in the tick of a calibration request is served before that calibration (R507). -/
def Chip.writeInjreq (c : Chip) (v : Word) : Chip :=
  let ch := fld v 0 5
  let k := fld v 8 2
  if k = 3 || 23 < ch then c.setBit Reg.adcstat 4
  else if 4 ≤ c.adc.injQ.length then (c.setBit Reg.adcstat 5).raise 106 ch
  else
    let c := { c with adc.injQ := c.adc.injQ ++ [InjReq.mk ch k] }
    let c := if k = 0 then c else c.modConv (k - 1) fun w =>
      if w.calReq && w.calAt = c.tg.tick && (!w.calRun || w.calStep = 0) then
        { w with calRun := false, calWait := w.calWait + 1 } else w
    c.adcKick

/-- A request for calibration of converter `k` (R506). -/
def Chip.calRequest (c : Chip) (k : Nat) : Chip :=
  if !c.adc.settled || !c.adcEn k || (c.conv k).calReq then c.setBit Reg.adcstat 4
  else c.modConv k fun v =>
    { v with calReq := true, calAt := c.tg.tick, calWait := (c.adc.injQ.filter (·.conv = k + 1)).length, calSeq := false }

/-- A write to ADCCAL (R506). -/
def Chip.writeAdccal (c : Chip) (v : Word) : Chip :=
  let c := if v.getLsbD 0 then c.calRequest 0 else c
  let c := if v.getLsbD 1 then c.calRequest 1 else c
  let both := v.getLsbD 0 && v.getLsbD 1
  (if both then c.modConv 1 fun w => { w with calSeq := w.calReq && !w.calRun } else c).adcKick

/-- CALIBRATION_STEP_DONE: a waiting injected request is served at the boundary (R507). -/
def Chip.calStepDone (c : Chip) (k : Nat) : Chip :=
  let v := c.conv k
  if !c.up .afe || !v.calRun || v.busy.isSome || 16 ≤ v.calStep then c else
  let c := c.modConv k fun v => { v with calStep := v.calStep + 1 }
  match c.injFor k with
  | some r => c.injStart k r
  | none => c

/-- CALIBRATION_DONE: the measured offset and gain go to CALk, with event 108 (R508). -/
def Chip.calDone (c : Chip) (k : Nat) (offset gain : BitVec 16) : Chip :=
  let v := c.conv k
  if !c.up .afe || !v.calRun || v.busy.isSome || v.calStep < 15 then c else
  let c := c.modConv k fun v => { v with calRun := false, calReq := false, calStep := 0 }
  (({ c with adc.cal := c.adc.cal.set k (gain ++ offset) }).raise 108 k).adcKick

/-- REGULAR_PASS_START (R505). -/
def Chip.passStart (c : Chip) (k : Nat) : Chip :=
  let v := c.conv k
  if !c.up .afe || !c.bit (Reg.rseqCtl k) 8 || !v.passEnd then c
  else (c.elapseTick (v.passAt + c.rf (Reg.rseqCtl k) 16 16)).adcKick

/-- A write to RSEQkCTL; LEN is kept while RUN = 1 (R505, R512). -/
def Chip.writeRseqCtl (c : Chip) (k : Nat) (v : Word) : Chip :=
  let old := c.reg (Reg.rseqCtl k)
  if old.getLsbD 8 && fld v 0 4 ≠ fld old 0 4 then c.setBit Reg.adcstat 4
  else
    let c := c.plainWrite (Reg.rseqCtl k) v
    if v.getLsbD 8 && !old.getLsbD 8 then
      (c.modConv k fun w => { w with passEnd := false, pos := 0, passAt := c.tg.tick }).adcKick
    else c.adcKick

/-- A write to a list word: refused while RUN = 1, or for a channel above 23 (R505). -/
def Chip.writeRseqEntry (c : Chip) (k a : Nat) (v : Word) : Chip :=
  if c.bit (Reg.rseqCtl k) 8 || (List.range 4).any (fun j => 23 < fld v (8 * j) 5) then c.setBit Reg.adcstat 4
  else c.plainWrite a v

/-- A write to a register of a regular list. -/
def Chip.writeRseq (c : Chip) (k a : Nat) (v : Word) : Chip :=
  if a = Reg.rseqCtl k then c.writeRseqCtl k v else c.writeRseqEntry k a v

/-! ADC registers (R499, R509 to R512). -/

/-- A read of an ADC register. -/
def readAdc (c : Chip) (m : Master) (a : Nat) : Word :=
  if a = Reg.adcstat then
    c.reg a ||| pack [(0, b2n c.adc.settled), (2, b2n (c.conv 0).calReq), (3, b2n (c.conv 1).calReq)]
  else if a = Reg.calReg 0 then c.adc.cal.getD 0 0
  else if a = Reg.calReg 1 then c.adc.cal.getD 1 0
  else if a = Reg.injq then word c.adc.injQ.length
  else if a = Reg.injlo then (c.adc.inj.read c.tg.tick).1
  else if a = Reg.injhi then c.shadow m a
  else if a = Reg.vtxset then maskWord fun n => c.adc.vtxSet.contains n
  else if Reg.chLo 0 ≤ a && a < Reg.chLo 24 then
    (if (a - Reg.chLo 0) % 8 = 0 then ((c.adc.results.getD ((a - Reg.chLo 0) / 8) {}).read c.tg.tick).1 else c.shadow m a)
  else c.reg a

/-- A write to an ADC register. -/
def writeAdc (c : Chip) (a : Nat) (v : Word) : Chip :=
  if a = Reg.adcref then c.writeAdcref v
  else if a = Reg.extuv then c.setReg a (word (clampN 1800000 2600000 v.toNat))
  else if a = Reg.ratuv then c.setReg a (word (clampN 2700000 5500000 v.toNat))
  else if a = Reg.adccal then c.writeAdccal v
  else if a = Reg.injreq then c.writeInjreq v
  else if Reg.rseqCtl 0 ≤ a && a < Reg.rseqCtl 2 then c.writeRseq (if a < Reg.rseqCtl 1 then 0 else 1) a v
  else if a = Reg.adcctl then (c.plainWrite a v).adcKick
  else c.plainWrite a v

/-- The acquisition block as AFE leaves reset: the internal reference starts to settle (R495). -/
def Chip.adcInit (c : Chip) : Chip :=
  { c with adc := { settleAt := some c.tg.tick, checkAt := c.tg.tick, dieAt := c.tg.tick } }

end Sys2Proof.Machine
end

