-- ==== Sys2Proof/Machine/F64.lean ====
section
/-! DEFINITION. IEEE 754 binary64 on bit patterns, rounding to nearest with ties to even, as R264 asks of the back end. -/

namespace Sys2Proof.Machine

/-- What a binary64 pattern means: a rational `num / den`, an infinity, or not a number. -/
inductive FVal where
  | fin (neg : Bool) (num den : Nat)
  | inf (neg : Bool)
  | nan
  deriving DecidableEq, Repr

/-- The quiet pattern used for not a number. -/
def fnanBits : BitVec 64 := 0x7FF8000000000000

/-- The value of a pattern. -/
def fdec (b : BitVec 64) : FVal :=
  let n := b.toNat
  let neg := 2 ^ 63 ≤ n
  let e := n / 2 ^ 52 % 2048
  let m := n % 2 ^ 52
  if e = 2047 then (if m = 0 then .inf neg else .nan)
  else if e = 0 then .fin neg m (2 ^ 1074)
  else if 1075 ≤ e then .fin neg ((2 ^ 52 + m) * 2 ^ (e - 1075)) 1
  else .fin neg (2 ^ 52 + m) (2 ^ (1075 - e))

/-- Assemble a pattern. -/
def fpack (neg : Bool) (e m : Nat) : BitVec 64 := BitVec.ofNat 64 (b2n neg * 2 ^ 63 + e * 2 ^ 52 + m)

/-- The pattern nearest to `± num / den`, ties to even. -/
def fround (neg : Bool) (num den : Nat) : BitVec 64 :=
  if num = 0 then fpack neg 0 0 else
  let l : Int := (Nat.log2 num : Int) - Nat.log2 den
  let below := if 0 ≤ l then num < den * 2 ^ l.toNat else num * 2 ^ (-l).toNat < den
  let ulp : Int := Max.max ((if below then l - 1 else l) - 52) (-1074)
  let (n, d) := if 0 ≤ ulp then (num, den * 2 ^ ulp.toNat) else (num * 2 ^ (-ulp).toNat, den)
  let q := n / d
  let r := n % d
  let q := if d < 2 * r || (2 * r = d && q % 2 = 1) then q + 1 else q
  let (q, ulp) := if q = 2 ^ 53 then (2 ^ 52, ulp + 1) else (q, ulp)
  if q < 2 ^ 52 then fpack neg 0 q
  else
    let e := (ulp + 1075).toNat
    if 2047 ≤ e then fpack neg 2047 0 else fpack neg e (q - 2 ^ 52)

/-- The pattern nearest to a rational. -/
def frat (n : Int) (d : Nat) : BitVec 64 := fround (n < 0) n.natAbs d

/-- The negated pattern. -/
def fneg (a : BitVec 64) : BitVec 64 := a ^^^ (1#64 <<< 63)

/-- Addition. -/
def fadd (a b : BitVec 64) : BitVec 64 :=
  match fdec a, fdec b with
  | .nan, _ => fnanBits
  | _, .nan => fnanBits
  | .inf s, .inf t => if s = t then a else fnanBits
  | .inf _, _ => a
  | _, .inf _ => b
  | .fin s n d, .fin t m e =>
    let sgn (g : Bool) (x : Nat) : Int := if g then -(x : Int) else x
    let v := sgn s (n * e) + sgn t (m * d)
    if v = 0 then fpack (s && t) 0 0 else frat v (d * e)

/-- Subtraction. -/
def fsub (a b : BitVec 64) : BitVec 64 := fadd a (fneg b)

/-- Multiplication. -/
def fmul (a b : BitVec 64) : BitVec 64 :=
  match fdec a, fdec b with
  | .nan, _ => fnanBits
  | _, .nan => fnanBits
  | .inf s, .inf t => fpack (s != t) 2047 0
  | .inf s, .fin t n _ => if n = 0 then fnanBits else fpack (s != t) 2047 0
  | .fin s n _, .inf t => if n = 0 then fnanBits else fpack (s != t) 2047 0
  | .fin s n d, .fin t m e => fround (s != t) (n * m) (d * e)

/-- Division. -/
def fdiv (a b : BitVec 64) : BitVec 64 :=
  match fdec a, fdec b with
  | .nan, _ => fnanBits
  | _, .nan => fnanBits
  | .inf _, .inf _ => fnanBits
  | .inf s, .fin t _ _ => fpack (s != t) 2047 0
  | .fin s _ _, .inf t => fpack (s != t) 0 0
  | .fin s n d, .fin t m e =>
    if m = 0 then (if n = 0 then fnanBits else fpack (s != t) 2047 0) else fround (s != t) (n * e) (d * m)

/-- The integer square root by `k` bits, greatest first. -/
def isqrt : Nat → Nat → Nat → Nat
  | 0, _, r => r
  | k + 1, n, r => isqrt k n (if (r + 2 ^ k) * (r + 2 ^ k) ≤ n then r + 2 ^ k else r)

/-- The square root. -/
def fsqrt (a : BitVec 64) : BitVec 64 :=
  match fdec a with
  | .nan => fnanBits
  | .inf s => if s then fnanBits else a
  | .fin s n d =>
    if n = 0 then a
    else if s then fnanBits
    else
      let x := n * 2 ^ 2400 / d
      let r := isqrt 1800 x 0
      let exact := r * r = x && n * 2 ^ 2400 % d = 0
      fround false (2 * r + b2n (!exact)) (2 ^ 1201)

/-- Less than; false with not a number. -/
def flt (a b : BitVec 64) : Bool :=
  match fdec a, fdec b with
  | .nan, _ => false
  | _, .nan => false
  | .inf s, .inf t => s && !t
  | .inf s, _ => s
  | _, .inf t => !t
  | .fin s n d, .fin t m e =>
    let sgn (g : Bool) (x : Nat) : Int := if g then -(x : Int) else x
    sgn s (n * e) < sgn t (m * d)

/-- The integer part rounded towards zero, within ± `top`; none for not a number. -/
def ftrunc (top : Nat) (a : BitVec 64) : Option Int :=
  match fdec a with
  | .nan => none
  | .inf s => some (if s then -(top : Int) else top)
  | .fin s n d => some (if s then -(Nat.min top (n / d) : Nat) else (Nat.min top (n / d) : Nat))

end Sys2Proof.Machine
end

