-- ==== Sys2Proof/Machine/Back.lean ====
section
/-! DEFINITION. The supervisor's back end of the estimator, once per chip: identification, confidence, fusion, learning,
health and the brick records (R264 to R286; log 41). -/

namespace Sys2Proof.Machine

/-! The identifier (R264 to R266). -/

/-- An integer over a power of ten, in binary64. -/
def fnum (n : Int) (d : Nat) : BitVec 64 := frat n d

/-- A sum of products, left to right. -/
def fdot : List (BitVec 64) → List (BitVec 64) → BitVec 64
  | a :: as, b :: bs => (as.zip bs).foldl (fun s p => fadd s (fmul p.1 p.2)) (fmul a b)
  | _, _ => fnum 0 1

/-- Row `i` of a 4 × 4 matrix. -/
def frow (m : List (BitVec 64)) (i : Nat) : List (BitVec 64) := (m.drop (4 * i)).take 4

/-- Column `j` of a 4 × 4 matrix. -/
def fcol (m : List (BitVec 64)) (j : Nat) : List (BitVec 64) := (List.range 4).map fun i => m.getD (4 * i + j) 0

/-- P at a restart: 10^4 × I (R265). -/
def covStart : List (BitVec 64) :=
  (List.range 16).map fun i => if i % 5 = 0 then fnum 10000 1 else fnum 0 1

/-- θ at a first start, RS0 in µΩ (R265). -/
def thetaStart (rs0 : Nat) : List (BitVec 64) :=
  [fnum 0 1, fnum 9 10, fnum rs0 1000000, fmul (fnum 9 10) (fnum rs0 1000000)]

/-- One update of θ, P and s² with λ = 1 − 2^−`sh` (R264): V in 0.1 mV, I in mA. -/
def BackSlot.update (b : BackSlot) (sh v : Nat) (i : Int) : BackSlot :=
  let lam := fnum (2 ^ sh - 1 : Nat) (2 ^ sh)
  let V := fnum v 10000
  let I := fnum i 1000
  let phi := [fnum 1 1, fnum b.pv 10000, fneg I, fnum b.pi 1000]
  let e := fsub V (fdot phi b.theta)
  let pphi := (List.range 4).map fun r => fdot (frow b.cov r) phi
  let den := fadd lam (fdot phi pphi)
  let k := pphi.map fun x => fdiv x den
  let phip := (List.range 4).map fun j => fdot phi (fcol b.cov j)
  let cov := (List.range 16).map fun n =>
    fdiv (fsub (b.cov.getD n 0) (fmul (k.getD (n / 4) 0) (phip.getD (n % 4) 0))) lam
  { b with theta := (b.theta.zip k).map fun p => fadd p.1 (fmul p.2 e),
           cov := cov,
           s2 := fadd (fmul lam b.s2) (fmul (fsub (fnum 1 1) lam) (fmul e e)) }

/-- The identifier is valid (R266). -/
def BackSlot.valid (b : BackSlot) : Bool :=
  let th (n : Nat) := b.theta.getD n 0
  flt (fnum 0 1) (th 1) && flt (th 1) (fnum 1 1) && flt (fnum 0 1) (th 3) && flt (fdiv (th 3) (th 1)) (th 2)

/-- The brick's OCV in volts (R266). -/
def BackSlot.ocv (b : BackSlot) : BitVec 64 := fdiv (b.theta.getD 0 0) (fsub (fnum 1 1) (b.theta.getD 1 0))

/-- The step |I[n] − I[n−1]| is below the excitation threshold, mA (R264). -/
def BackSlot.still (b : BackSlot) (exmin : Nat) (i : Int) : Bool :=
  let d := fsub (fnum i 1000) (fnum b.pi 1000)
  flt (if flt d (fnum 0 1) then fneg d else d) (fnum exmin 1000)

/-! Chemistry sets (R267, R268). -/

/-- A 16-bit entry of chemistry set `s`. -/
def Chip.chemEntry (c : Chip) (s off i : Nat) : Nat := c.rf (Reg.chem0 0 + 0x280 * s + off + 4 * (i / 2)) (16 * (i % 2)) 16

/-- TEMPj of a set. -/
def Chip.chemTemp (c : Chip) (s j : Nat) : Int := signed 16 (c.chemEntry s 0 j)

/-- A list of numbers that rises, strictly or not. -/
def rises (strict : Bool) : List Int → Bool
  | a :: b :: t => (if strict then a < b else a ≤ b) && rises strict (b :: t)
  | _ => true

/-- The ordering of Table 8.2. -/
def Chip.chemOk (c : Chip) (s : Nat) : Bool :=
  let bp := (List.range 32).map fun i => (c.chemEntry s 0x10 i : Int)
  rises true ((List.range 8).map (c.chemTemp s)) && rises true bp && bp.head? == some 0 && bp.getLast? == some 10000 &&
    (List.range 8).all fun j => rises false ((List.range 32).map fun i => (c.chemEntry s (0x50 + 0x40 * j) i : Int))

/-- The OCV column at a temperature, in 0.1 mV times the second number (R268). -/
def Chip.ocvColumn (c : Chip) (s : Nat) (t : Int) : List Int × Int :=
  let col (j : Nat) := (List.range 32).map fun i => (c.chemEntry s (0x50 + 0x40 * j) i : Int)
  match (List.range 8).find? fun j => t < c.chemTemp s j with
  | some 0 => (col 0, 1)
  | some (j + 1) =>
    let d := c.chemTemp s (j + 1) - c.chemTemp s j
    (List.zipWith (fun x y => x * d + (y - x) * (t - c.chemTemp s j)) (col j) (col (j + 1)), d)
  | none => (col 7, 1)

/-- SoC_ov of a per-cell OCV `n/d` in 0.1 mV, and the slope there as a fraction (R268). -/
def Chip.socOf (c : Chip) (s : Nat) (t n d : Int) : Nat × Int × Int :=
  let (col, sc) := c.ocvColumn s t
  let o (i : Nat) := col.getD i 0
  let bp (i : Nat) : Int := c.chemEntry s 0x10 i
  let i := (((List.range 31).filter fun i => o i * d ≤ n * sc).getLast?).getD 0
  let span := bp (i + 1) - bp i
  let rise := o (i + 1) - o i
  let x := if n * sc ≤ o 0 * d then 0
    else if o 31 * d ≤ n * sc then 10000
    else bp i + (span * (n * sc - o i * d)) / (rise * d)
  ((clampI 0 10000 x).toNat, rise, span * sc)

/-! The brick record (R286). -/

/-- The address of a slot's record. -/
def Chip.recAt (c : Chip) (k : Nat) : Nat := (c.reg Reg.recbase &&& 0xFFFFE000).toNat + 64 * k

/-- A field of the record. -/
def Chip.recGet (c : Chip) (k off n : Nat) : Nat := c.bytesNat (c.recAt k + off) n

/-- Write a field of the record. -/
def Chip.recPut (c : Chip) (k off n v : Nat) : Chip := c.putBytes (c.recAt k + off) v n

/-- A flag of the record. -/
def Chip.recFlag (c : Chip) (k i : Nat) : Bool := (word (c.recGet k 0x24 4)).getLsbD i

/-- Write a flag of the record. -/
def Chip.putFlag (c : Chip) (k i : Nat) (b : Bool) : Chip :=
  c.recPut k 0x24 4 (put (word (c.recGet k 0x24 4)) i 1 (b2n b)).toNat

/-- A binary64 result truncated into an unsigned field; what does not fit is free (log 4). -/
def Chip.recFit (c : Chip) (k off n : Nat) (x : BitVec 64) : Chip :=
  match ftrunc (2 ^ 70) x with
  | some v =>
    if 0 ≤ v && v < 2 ^ (8 * n) then c.recPut k off n v.toNat else (c.recPut k off n c.free.toNat).useFree
  | none => (c.recPut k off n c.free.toNat).useFree

/-- The back end's state of a slot. -/
def Chip.backSt (c : Chip) (k : Nat) : BackSlot := c.est.back.getD k {}

/-- Change the back end's state of a slot. -/
def Chip.modBack (c : Chip) (k : Nat) (f : BackSlot → BackSlot) : Chip := { c with est.back := c.est.back.modify k f }

/-- QCAP in counter units (R270). -/
def Chip.qUnits (c : Chip) (k : Nat) : Int := (c.recGet k 0x18 4 * 360000000000 : Nat)

/-- SoC_cc; free where QCAP is 0 (R270, log 4). -/
def Chip.socCc (c : Chip) (k : Nat) : Int :=
  if c.qUnits k = 0 then c.free.toInt else ((c.eslotSt k).q * 10000).tdiv (c.qUnits k)

/-- An adjustment by the back end: it lands at once, and joins the window's sum (R270, R274, R279; log 41). -/
def Chip.backAdjust (c : Chip) (k : Nat) (d : Int) : Chip :=
  (c.setQ k ((c.eslotSt k).q + d)).modBack k fun b => { b with adj := b.adj + d }

/-- u of the record. -/
def Chip.recU (c : Chip) (k : Nat) : Nat := c.recGet k 0x02 2

/-- Set u. -/
def Chip.setU (c : Chip) (k u : Nat) : Chip := c.recPut k 0x02 2 (Nat.min 10000 u)

/-- One chip record as the back end reads it (Table 8.1). -/
structure ChipRec where
  v     : Nat
  i     : Int
  valid : Bool
  dith  : Bool
  act   : Bool

/-- Read slot `k`'s chip record from a tile's loop RAM. -/
def Chip.chipRead (c : Chip) (t k : Nat) : ChipRec :=
  let a := chipAddr t k
  let f := c.byte (a + 3)
  { v := c.bytesNat a 3, i := signed 32 (c.bytesNat (a + 4) 4), valid := f.getLsbD 0, dith := f.getLsbD 1,
    act := f.getLsbD 2 }

/-! One chip of one slot. -/

/-- Restart and first start (R265). -/
def Chip.backStart (c : Chip) (k : Nat) : Chip :=
  let b := c.backSt k
  let first := !b.known
  let again := c.est.restart || c.est.takeover || b.chem ≠ c.chem k || b.ncell ≠ c.ncell k
  if !(first || again) then c else
  let rs0 := c.recGet k 0x20 4
  let c := c.modBack k fun b =>
    { b with known := true, theta := if first then thetaStart rs0 else b.theta, cov := covStart,
             s2 := fnum 1 1000000, chem := c.chem k, ncell := c.ncell k }
  let c := c.recPut k 0x34 4 0
  if first then (c.putFlag k 6 false).recPut k 0x06 2 0 else c

/-- KHLSUG (R282); free where a divisor is 0 (log 4). -/
def Chip.khlsug (c : Chip) (k : Nat) : Nat :=
  let qcap := c.recGet k 0x18 4
  let qnom := c.recGet k 0x1C 4
  let rs0 := c.recGet k 0x20 4
  let rs := c.recGet k 0x0C 4
  if qnom = 0 || rs = 0 then 1 + c.free.toNat % 128
  else Nat.max 1 (Nat.min 128 (Nat.min (128 * qcap / qnom) (128 * rs0 / rs)))

/-- What a valid identification publishes, and the health it implies (R266, R282, R283). -/
def Chip.publish (c : Chip) (k : Nat) : Chip :=
  let b := c.backSt k
  let th (n : Nat) := b.theta.getD n 0
  let one := fnum 1 1
  let rs := fdiv (th 3) (th 1)
  let rp := fdiv (fsub (th 2) rs) (fsub one (th 1))
  let h := fnum (2 ^ fld c.alloc.ctl 4 4 * c.tg.period : Nat) 100000000
  let cp := fdiv (fneg h) (fmul rp (Config.ln64 (th 1)))
  let c := c.recFit k 0x08 4 (fmul b.ocv (fnum 10000 1))
  let c := c.recFit k 0x0C 4 (fmul rs (fnum 1000000 1))
  let c := c.recFit k 0x10 4 (fmul rp (fnum 1000000 1))
  let c := c.recFit k 0x14 4 (fmul cp (fnum 10 1))
  let c := (c.recPut k 0x2A 1 (c.khlsug k)).useFree
  let r := c.recGet k 0x0C 4
  let c := if r < 2 ^ 20 then c.putFld (Reg.eslot k) 0 20 r else (c.putFld (Reg.eslot k) 0 20 c.free.toNat).useFree
  let rs0 := c.recGet k 0x20 4
  let out := 2 * r < rs0 || rs0 * c.rf Reg.bepar2 24 8 < r * 16
  (c.raiseIf (out && !c.recFlag k 3) 90 k).putFlag k 3 out

/-- The identifier's part of a chip (R264 to R266). -/
def Chip.identify (c : Chip) (k : Nat) (x : ChipRec) (next : Bool) : Chip :=
  let b := c.backSt k
  let use := next && b.pUse && x.valid && x.act
  let c := if use && !b.still (c.rf Reg.bepar2 0 16) x.i then
      let c := c.modBack k fun b => b.update (Nat.max 4 (c.rf Reg.bepar0 0 4)) x.v x.i
      let c := c.recPut k 0x34 4 (c.recGet k 0x34 4 + 1)
      let ok := (c.backSt k).valid
      let c := c.putFlag k 6 ok
      if ok then c.publish k else c
    else c
  c.modBack k fun b => { b with pv := x.v, pi := x.i, pUse := x.valid && x.act }

/-- usoc in 0.01 % (R269). -/
def BackSlot.usoc (b : BackSlot) (ncell : Nat) (slope : BitVec 64) : BitVec 64 :=
  let p (n : Nat) := b.cov.getD n 0
  let o := b.ocv
  let q := fadd (fadd (p 0) (fmul (fmul (fnum 2 1) o) (p 1))) (fmul (fmul o o) (p 5))
  let sigma := fdiv (fsqrt (fmul b.s2 q)) (fsub (fnum 1 1) (b.theta.getD 1 0))
  fdiv (fdiv (fmul sigma (fnum 10000 1)) (fnum ncell 1)) slope

/-- κ from usoc: ⌊1024 × max(0, 1 − usoc / UMAX)⌋; none where it is not a number. -/
def kappaOf (usoc : BitVec 64) (umax : Nat) : Option Nat :=
  let r := fsub (fnum 1 1) (fdiv usoc (fnum umax 1))
  if flt r (fnum 0 1) then some 0 else (ftrunc 2048 (fmul (fnum 1024 1) r)).map fun x => Nat.min 1024 x.toNat

/-- SoC_ov and κ of a chip; answers usoc truncated (R268, R269; log 41). -/
def Chip.confidence (c : Chip) (k : Nat) : Chip × Nat :=
  let b := c.backSt k
  let s := c.chem k
  let bad := !c.chemOk s
  let c := c.putFlag k 5 bad
  let ok := c.recFlag k 6
  if bad || !ok then ((c.recPut k 0x06 2 0).useFree, c.free.toNat % 10001) else
  let (soc, n, d) : Nat × Int × Int := (match fdec b.ocv with
    | .fin neg num den =>
      let num : Int := if neg then -(num : Int) else num
      if c.ncell k = 0 then (c.free.toNat % 10001, 0, 1)
      else c.socOf s ((c.hslot k).tstg * 64) (10000 * num) (den * c.ncell k : Nat)
    | _ => (c.free.toNat % 10001, 0, 1))
  let c := (c.recPut k 0x04 2 soc).useFree
  if n = 0 then (c.recPut k 0x06 2 0, 10000) else
  let usoc := b.usoc (c.ncell k) (fnum n d.toNat)
  let kap := if c.recGet k 0x34 4 < c.rf Reg.bepar0 8 8 then 0
    else (kappaOf usoc (c.rf Reg.bepar1 16 16)).getD (c.free.toNat % 1025)
  let u := (ftrunc 10000 usoc).getD (c.free.toNat % 10001 : Nat)
  ((c.recPut k 0x06 2 kap).useFree, u.toNat)

/-- A chip at which κ ≥ KCONF (R269). -/
def Chip.confident (c : Chip) (k : Nat) : Bool := c.rf Reg.bepar0 16 10 ≤ c.recGet k 0x06 2

/-- u grows with the counter's movement (R271). -/
def Chip.growU (c : Chip) (k : Nat) (cc : Int) : Chip :=
  let d := match (c.backSt k).soccc with | some p => (cc - p).natAbs | none => 0
  (c.setU k (c.recU k + d * c.rf Reg.bepar2 16 8 / 1000)).modBack k fun b => { b with soccc := some cc }

/-- Close the window with a cause: event 89 (R278). -/
def Chip.closeWindow (c : Chip) (k cause : Nat) : Chip :=
  ((c.putFlag k 2 false).recPut k 0x2B 1 cause).raise 89 k

/-- Open a window at a confident point (R277). -/
def Chip.openWindow (c : Chip) (k : Nat) : Chip :=
  let c := (c.putFlag k 2 true).recPut k 0x28 2 (c.recGet k 0x04 2)
  (c.recPut k 0x2C 8 (bitsI 64 (c.eslotSt k).q)).modBack k fun b => { b with adj := 0 }

/-- The first cause of Table 8.5 that a chip shows, 7 and 8 apart (R278). -/
def Chip.windowCause (c : Chip) (k : Nat) (x : ChipRec) : Option Nat :=
  let t := (c.hslot k).tstg
  if t < 10 || 45 < t then some 1
  else if c.recGet k 0x18 4 < 2 * x.i.natAbs then some 2
  else if 100000000 < (c.backSt k).quiet then some 3
  else if c.bit (Reg.lgap (k / 32)) (k % 32) then some 4
  else if c.est.restart && (c.pwr.rstCause.getLsbD 7 || c.pwr.warm) then some 5
  else if c.est.gapSeen then some 6
  else if c.est.reload then some 9
  else none

/-- Point B of a window whose span suffices (R279, R280). -/
def Chip.learn (c : Chip) (k : Nat) : Chip :=
  let qcap := c.recGet k 0x18 4
  let dsoc : Int := (c.recGet k 0x04 2 : Int) - c.recGet k 0x28 2
  let dq := (c.eslotSt k).q - signed 64 (c.recGet k 0x2C 8) - (c.backSt k).adj
  let cnew := dq.natAbs * 10000 / (360000000000 * dsoc.natAbs)
  let diff : Int := (cnew : Int) - qcap
  if qcap * c.rf Reg.bepar4 8 8 < diff.natAbs * 100 then (c.closeWindow k 7).openWindow k
  else if (dq < 0 && 0 < dsoc) || (0 < dq && dsoc < 0) then c.closeWindow k 8
  else
    let c := c.recPut k 0x18 4 ((qcap : Int) + diff.tdiv (2 ^ c.rf Reg.bepar4 0 4 : Nat)).toNat
    let c := (c.putFlag k 1 false).recPut k 0x38 2 (c.recGet k 0x38 2 + 1)
    (c.raise 88 k).openWindow k

/-- Capacity learning at a chip (R277 to R280). -/
def Chip.learning (c : Chip) (k : Nat) (x : ChipRec) : Chip :=
  let len := 2 ^ fld c.alloc.ctl 4 4 * c.tg.period
  let c := c.modBack k fun b => { b with quiet := if x.dith then 0 else b.quiet + len }
  let conf := c.confident k
  if c.recFlag k 2 then
    match c.windowCause k x with
    | some n => c.closeWindow k n
    | none =>
      let span := ((c.recGet k 0x04 2 : Int) - c.recGet k 0x28 2).natAbs
      if conf && Nat.max 40 (c.rf Reg.bepar4 16 8) * 100 ≤ span then c.learn k else c
  else if conf then c.openWindow k else c

/-- Anchors at newly set limit bits (R274). -/
def Chip.anchors (c : Chip) (k : Nat) : Chip :=
  let e := c.eslotSt k
  let b := c.backSt k
  let c := if e.eod && !b.eodSeen then c.backAdjust k (-(c.eslotSt k).q) else c
  let c := if e.eoc && !b.eocSeen then c.backAdjust k (c.qUnits k - (c.eslotSt k).q) else c
  c.modBack k fun b => { b with eodSeen := e.eod, eocSeen := e.eoc }

/-- SUSPECT at an end of the counter (Table 8.4). -/
def Chip.suspect (c : Chip) (k held : Nat) : Chip :=
  (((c.putFlag k 0 true).putFlag k 1 true).raise 87 k |>.setU k 10000).modBack k fun b => { b with held := held }

/-- Counter against voltage, the first condition that holds (R275). -/
def Chip.disagree (c : Chip) (k : Nat) (x : ChipRec) (usoc : Nat) : Chip :=
  let e := c.eslotSt k
  let cc := c.socCc k
  let sus := c.recFlag k 0
  if cc ≤ 0 && e.eod then c
  else if cc ≤ 0 && 0 < x.i && !e.eod && !sus then c.suspect k 0
  else if 10000 ≤ cc && x.i < 0 && !e.eoc && !sus then c.suspect k 10000
  else if sus && c.confident k then
    let c := c.backAdjust k ((c.recGet k 0x04 2 * c.qUnits k).tdiv 10000 - e.q)
    (c.putFlag k 0 false).setU k usoc
  else c

/-- Fusion, the uncertainty, and the reported SoC (R270, R271, R275). -/
def Chip.fuse (c : Chip) (k usoc : Nat) : Chip :=
  let cc := c.socCc k
  let kap := c.recGet k 0x06 2
  let sh := c.rf Reg.bepar1 12 4
  let sus := c.recFlag k 0
  let act := !sus && c.rf Reg.bepar1 0 10 ≤ kap
  let corr : Int := if act then (((c.recGet k 0x04 2 : Int) - cc) * kap).tdiv (1024 * 2 ^ sh : Nat) else 0
  let c := if act then
      let c := c.backAdjust k ((corr * c.qUnits k).tdiv 10000)
      let u := c.recU k
      if usoc < u then c.setU k (u - (u - usoc) * kap / (1024 * 2 ^ sh)) else c
    else c
  let c := if c.confident k then c.setU k (Nat.min (c.recU k) usoc) else c
  (c.recPut k 0x00 2 (if sus then (c.backSt k).held else (clampI 0 10000 (cc + corr)).toNat)).useFree

/-- Cell imbalance of the latest complete rotation (R284). -/
def Chip.cellImbalance (c : Chip) (k : Nat) : Chip :=
  match (c.backSt k).spread with
  | none => c
  | some s =>
    let lim := c.rf Reg.bepar3 16 16
    let on := c.recFlag k 4
    if lim < s && !on then (c.raise 91 k).putFlag k 4 true
    else if on && s * 10 < lim * 9 then c.putFlag k 4 false
    else c

/-- The counter after a HUB reset or a boot: reloaded from QSAVE, which firmware holds and the model does not (R281,
log 4). -/
def Chip.reloadQ (c : Chip) (k : Nat) : Chip :=
  if !c.est.reload then c else
  let c := c.setQ k (signed 64 (c.free.toNat + 2 ^ 32 * (Config.freeWord (c.freeIx + 1)).toNat))
  { c with freeIx := c.freeIx + 2 }.setU k 10000

/-- One chip of one estimated slot; nothing where the record lies outside data SRAM. -/
def Chip.backSlot (c : Chip) (t k : Nat) (next : Bool) : Chip :=
  if !inSram (c.recAt k) then c else
  let x := c.chipRead t k
  let bump (c : Chip) := c.recPut k 0x3C 4 (c.recGet k 0x3C 4 + 1)
  let c := (bump c).reloadQ k
  let c := (c.backStart k).identify k x next
  let (c, usoc) := c.confidence k
  let c := (c.growU k (c.socCc k)).learning k x
  let c := ((c.anchors k).disagree k x usoc).fuse k usoc
  bump (c.cellImbalance k)

/-- Shelf imbalance over L0's ACTIVE BRICK members (R284); the slot the event names is not given (log 4). -/
def Chip.shelfImbalance (c : Chip) (t : Nat) : Chip :=
  let ks := allSlots.filter fun k =>
    c.estimated k && c.admitted k && (c.chipRead t k).act && inSram (c.recAt k)
  let socs := ks.map fun k => c.recGet k 0x00 2
  let s := socs.foldl Nat.max 0 - socs.foldl Nat.min 65535
  let lim := c.rf Reg.bepar3 0 16
  if lim < s && !c.est.imbShelf then
    ({ c with est.imbShelf := true }.raise 91 (c.free.toNat % 128)).useFree
  else if c.est.imbShelf && s * 10 < lim * 9 then { c with est.imbShelf := false }
  else c

/-- BACK_END_CHIP_UPDATE: the chip that FECHIP names, unless it was processed before (R262, R264). -/
def Chip.backEnd (c : Chip) : Chip :=
  if !(c.up .sup && c.up .hub) then c else
  let g := c.rf Reg.fechip 0 16
  match c.policyTile with
  | none => c
  | some t =>
    if g = c.est.backG then c else
    let next := g = (c.est.backG + 1) % 65536
    let c := allSlots.foldl (fun c k => if c.estimated k then c.backSlot t k next else c) c
    { c.shelfImbalance t with est.backG := g, est.restart := false, est.takeover := false, est.gapSeen := false,
                              est.reload := false }

end Sys2Proof.Machine
end

