-- ==== Sys2Proof/Machine/Strand.lean ====
section
/-! DEFINITION. The strands, their exceptions and the event controller's registers (R412 to R415, R429 to R441, R451 to
R453). -/

namespace Sys2Proof.Machine

/-! Priorities and issue (R431, R432). -/

/-- A strand's own priority, SnCTL.PRIO. -/
def Chip.prio (c : Chip) (n : Nat) : Nat := c.rf (Reg.snCtl n) 0 3

/-- A strand's effective priority: PRIO, its wake priority, and 6 while promoted (R431). A WPRI of 7 reads as 6 for a
strand whose PRIO is not 7 (R433). -/
def Chip.effPrio (c : Chip) (n : Nat) : Nat :=
  let s := c.strand n
  let wake := if c.prio n = 7 then s.wakePri else Nat.min 6 s.wakePri
  Nat.max (Nat.max (c.prio n) wake) (if s.promo then 6 else 0)

/-- The strand that next follows `n` among the READY strands of one effective priority, wrapping (R432). -/
def Chip.nextReady (c : Chip) (n : Nat) : Option (Fin 8) :=
  let p := c.effPrio n
  (((List.range 8).map fun i => (n + 1 + i) % 8).find? fun i =>
    i ≠ n && (c.strand i).run == .ready && c.effPrio i == p).map (Fin.ofNat 8)

/-- Issue passes to strand `n`: its starvation timer clears (R432, R434). -/
def Chip.issueTo (c : Chip) (n : Nat) : Chip :=
  let c := c.modStrand n fun s => { s with starv := 0 }
  if c.issue.holder = some (Fin.ofNat 8 n) then c
  else { c with issue := { holder := some (Fin.ofNat 8 n), since := c.now } }

/-- Issue leaves strand `n`: its promotion ends, and the next strand of its priority holds issue (R432, R434). -/
def Chip.issueFrom (c : Chip) (n : Nat) : Chip :=
  let nx := c.nextReady n
  let c := c.modStrand n fun s => { s with promo := false, starv := 0 }
  { c with issue := { holder := nx, since := c.now } }

/-- A strand leaves READY or stops: promotion ends and issue passes on (R432, R434). -/
def Chip.leaveReady (c : Chip) (n : Nat) : Chip :=
  if c.issue.holder = some (Fin.ofNat 8 n) then c.issueFrom n
  else c.modStrand n fun s => { s with promo := false, starv := 0 }

/-- QUANTUM_EXPIRY: the strand holding issue has held it for QUANT ticks (R432). -/
def Chip.quantumExpiry (c : Chip) : Chip :=
  if !c.up .sup then c else
  match c.issue.holder with
  | none => c
  | some n =>
    let c := c.elapseTo (c.issue.since + orOne (c.rf Reg.quant 0 16))
    match c.nextReady n.val with
    | some _ => c.issueFrom n.val
    | none => { c.modStrand n.val fun s => { s with promo := false } with issue.since := c.now }

/-- STARVATION_PROMOTION of strand `n`: its timer passes URG µs while its effective priority is below 6 (R434). -/
def Chip.promote (c : Chip) (n : Nat) : Chip :=
  let urg := c.rf (Reg.snCtl n) 16 16
  if !c.up .sup || (c.strand n).run ≠ .ready || urg = 0 || 6 ≤ c.effPrio n ||
      c.issue.holder = some (Fin.ofNat 8 n) then c else
  let c := c.elapse (urg * 100 - (c.strand n).starv)
  let c := c.modStrand n fun s => { s with promo := true }
  let c := (c.raise 126 n).pmonAdd { sel := 15, code := some n }
  let takes := match c.issue.holder with | none => true | some h => c.effPrio h.val ≤ 6
  if takes then c.issueTo n else c

/-! Exceptions (R415). -/

/-- Strand `n` takes an exception: c2 ← `resume`, c3 ← `code`, c4 ← `addr`, c6 ← the immediate of SYSC or BRK, PPRIV ←
PRIV, PRIV ← 1, PC ← c5; SnSTAT.EXC counts it. -/
def Chip.takeException (c : Chip) (n code : Nat) (resume addr : Word) (imm : Option Nat := none) : Chip :=
  let user := !(c.strand n).priv
  let c := c.modStrand n fun s =>
    { s with epc := resume, ecause := code, eaddr := addr, eval := imm.getD s.eval, ppriv := s.priv, priv := true, pc := s.tvec,
             exc := satAdd 0xFFFF s.exc 1 }
  c.pmonAdd { sel := 10, code := some n, user := some user }

/-- The return from an exception: PC ← c2, PRIV ← PPRIV, PPRIV ← 0 (R412). -/
def Strand.return (s : Strand) : Strand := { s with pc := s.epc, priv := s.ppriv, ppriv := false }

/-! Start and stop (R429, R430). -/

/-- The values of g1 to g15 at strand start are undefined: free words (R398, log 4). -/
def Chip.freeRegs (c : Chip) : List Word := 0 :: (List.range 15).map fun i => Config.freeWord (c.freeIx + i)

/-- A STOPPED strand becomes READY: PC from SnPC, control registers as Table 13.13, predicates cleared (R430). -/
def Chip.startStrand (c : Chip) (n : Nat) : Chip :=
  let g := c.freeRegs
  let pc := c.reg (Reg.snPc n)
  let c := c.modStrand n fun s => { run := .ready, g := g, pc := pc, exc := s.exc }
  { c with freeIx := c.freeIx + 15 }

/-- A strand stops (R430). -/
def Chip.stopStrand (c : Chip) (n : Nat) : Chip :=
  (c.leaveReady n).modStrand n fun s => { s with run := .stopped, wakePri := 0 }

/-- One strand's part of a write to STRCMD (R430). -/
def Chip.strcmd1 (c : Chip) (start stop : Bool) (n : Nat) : Chip :=
  let stopped := (c.strand n).run = .stopped
  if stop then
    if stopped then c.setBit Reg.strstat 16
    else
      let c := c.stopStrand n
      if start then c.setBit Reg.strstat 16 else c
  else if start then (if stopped then c.startStrand n else c.setBit Reg.strstat 16)
  else c

/-- A write to STRCMD; without its key it does nothing (R430). -/
def Chip.strcmd (c : Chip) (v : Word) : Chip :=
  if fld v 16 16 ≠ 0x57A7 then c
  else (List.range 8).foldl (fun c n => c.strcmd1 (v.getLsbD n) (v.getLsbD (8 + n)) n) c

/-! Waiting for events (R433). -/

/-- Event `e` is routed to strand `n` with WAKE = 1 (R438, Table 14.7). -/
def Chip.wakes (c : Chip) (e n : Nat) : Bool := c.bit (Reg.route e) 3 && c.rf (Reg.route e) 0 3 == n

/-- The pending events that wake strand `n`. -/
def Chip.pendingFor (c : Chip) (n : Nat) : List Nat :=
  (List.range 128).filter fun e => c.ev.pend.getLsbD e && c.wakes e n

/-- The greatest WPRI among pending events routed to strand `n` (R433). -/
def Chip.wakePrio (c : Chip) (n : Nat) : Nat :=
  (c.pendingFor n).foldl (fun p e => Nat.max p (c.rf (Reg.route e) 4 3)) 0

/-- A waiting strand that a pending event wakes becomes READY with its wake priority (R433). -/
def Chip.wakeStrand (c : Chip) (n : Nat) : Chip :=
  if (c.strand n).run = .waiting && !(c.pendingFor n).isEmpty then
    let p := c.wakePrio n
    c.modStrand n fun s => { s with run := .ready, wakePri := p, starv := 0 }
  else c

/-- WFE by strand `n`: it completes at once where such an event is pending, else the strand waits (R433). -/
def Chip.waitEvent (c : Chip) (n : Nat) : Chip :=
  let c := c.modStrand n fun s => { s with wakePri := 0 }
  if (c.pendingFor n).isEmpty then (c.leaveReady n).modStrand n fun s => { s with run := .waiting }
  else
    let p := c.wakePrio n
    let c := c.modStrand n fun s => { s with wakePri := p }
    if (c.nextReady n).isSome then c.issueFrom n else c

/-! STRAND registers (R451 to R453). -/

/-- The code of a run state (SnSTAT). -/
def RunState.code : RunState → Nat
  | .stopped => 0
  | .ready => 1
  | .waiting => 2

/-- A read of a STRAND register. -/
def readStrand (c : Chip) (m : Master) (a : Nat) : Word :=
  let h := c.ev.queue.head?
  if a = Reg.strstat then
    c.reg a ||| pack ((List.range 8).map fun n => (n, b2n ((c.strand n).run ≠ .stopped))) |||
      pack ((List.range 8).map fun n => (8 + n, b2n ((c.strand n).run = .waiting)))
  else if a = Reg.evseq then word c.ev.seq
  else if a = Reg.evqseq then (match h with | none => 0 | some e => word e.seq)
  else if a = Reg.evqinf then (match h with | none => 0 | some e => pack [(0, e.ev), (7, 1), (16, e.src)])
  else if a = Reg.evqtlo then (match h with | none => 0 | some e => word e.stamp)
  else if a = Reg.evqthi then c.shadow m a
  else if a = Reg.evqcnt then pack [(0, c.ev.queue.length), (16, c.ev.lost)]
  else if Reg.evpend 0 ≤ a && a < Reg.evpend 4 then word (c.ev.pend.toNat / 2 ^ (8 * (a - Reg.evpend 0)))
  else if Reg.route 0 ≤ a && a < Reg.route 128 then
    if a = Reg.route 124 || a = Reg.route 125 then c.reg a ||| 0x400 else c.reg a
  else
    match (List.range 8).find? fun n => a = Reg.snStat n || a = Reg.snStarv n with
    | some n =>
      if a = Reg.snStat n then
        pack [(0, (c.strand n).run.code), (2, c.effPrio n), (5, b2n (c.strand n).promo), (16, (c.strand n).exc)]
      else word (Nat.min 0xFFFFFFFF (c.strand n).starv)
    | none => c.reg a

/-- A write of SnCTL that would give PRIO 7 to a second strand is refused (R431). -/
def Chip.writeSnCtl (c : Chip) (n : Nat) (v : Word) : Chip :=
  if fld v 0 3 = 7 && (List.range 8).any (fun k => k ≠ n && c.prio k == 7) then c.setBit Reg.strstat 16
  else c.plainWrite (Reg.snCtl n) v

/-- A write to EVQPOP: remove the head entry; clear LOST (R439, R451). -/
def Chip.evqPop (c : Chip) (v : Word) : Chip :=
  let c := if v.getLsbD 0 then { c with ev.queue := c.ev.queue.tail } else c
  if v.getLsbD 1 then { c with ev.lost := 0 } else c

/-- A write to a STRAND register. -/
def writeStrand (c : Chip) (a : Nat) (v : Word) : Chip :=
  if a = Reg.strcmd then c.strcmd v
  else if a = Reg.swev then c.raise (if v.getLsbD 0 then 111 else 15) (fld v 16 16)
  else if a = Reg.evqpop then c.evqPop v
  else if Reg.evpend 0 ≤ a && a < Reg.evpend 4 then
    { c with ev.pend := c.ev.pend &&& ~~~(v.zeroExtend 128 <<< (8 * (a - Reg.evpend 0))) }
  else
    match (List.range 8).find? fun n => a = Reg.snCtl n with
    | some n => c.writeSnCtl n v
    | none => c.plainWrite a v

end Sys2Proof.Machine
end

