-- ==== Sys2Proof/Machine/Rec.lean ====
section
/-! DEFINITION. The recorder: buffer, ring, flush, freeze, views and fault snapshots (R473 to R486, R490 to R492). -/

namespace Sys2Proof.Machine

/-! The ring (R473, R478). -/

/-- Address of ring position `k`. -/
def recAddr (k : Nat) : Nat := 0x100000 + 32 * (k % 8192)

/-- The first 28 bytes of a record (Table 15.4). -/
def Record.body (r : Record) : List Byte :=
  natBytes 4 r.seq ++ natBytes 8 r.stamp ++ natBytes 1 r.evt ++ natBytes 1 r.kind ++ natBytes 2 r.src ++
    natBytes 4 r.optime ++ natBytes 3 r.pcyc ++ natBytes 1 r.rep ++ natBytes 4 r.data

/-- The record's 32 bytes at an address, its check under that address as context word (R15, R473). -/
def Record.bytesAt (r : Record) (a : Nat) : List Byte := r.body ++ wordBytes (checkCtx (word a) r.body)

/-- The corrected bytes of a flash word, erased and uncorrectable words as their stored bits. -/
def Chip.flashBytes (c : Chip) (a n : Nat) : List Byte :=
  (List.range n).map fun i =>
    match c.flashRead (a + i) with
    | some (d, _) => BitVec.ofNat 8 (d.toNat / 256 ^ ((a + i) % 8))
    | none => c.byte (a + i)

/-- A ring position is erased. -/
def Chip.posErased (c : Chip) (k : Nat) : Bool := (List.range 4).all fun i => c.erased (recAddr k + 8 * i)

/-- A ring position holds a record whose check passes. -/
def Chip.posValid (c : Chip) (k : Nat) : Bool :=
  let a := recAddr k
  !c.posErased k && (List.range 4).all (fun i => (c.flashRead (a + 8 * i)).isSome) &&
    bytesVal (c.flashBytes (a + 28) 4) == (checkCtx (word a) (c.flashBytes a 28)).toNat

/-- E: erased positions from WPTR onwards (R478). -/
def Chip.erasedRun (c : Chip) : Nat → Nat → Nat
  | 0, _ => 0
  | n + 1, k => if c.posErased k then 1 + c.erasedRun n (k + 1) else 0

/-- A sector of the ring holds valid records. -/
def Chip.sectorValid (c : Chip) (s : Nat) : Bool := (List.range 128).any fun i => c.posValid (128 * s + i)

/-- A sector of the ring is wholly erased. -/
def Chip.sectorErased (c : Chip) (s : Nat) : Bool := (List.range 128).all fun i => c.posErased (128 * s + i)

/-- Program 32 bytes at a ring position. -/
def Chip.storeRecord (c : Chip) (a : Nat) (bs : List Byte) : Chip :=
  (List.range 4).foldl (fun c i =>
    let w := (bs.drop (8 * i)).take 8
    c.flashStore (a + 8 * i) (word (bytesVal w)) (word (bytesVal (w.drop 4))) none) c

/-- WPTR moves on; where it enters a sector the next sector is erased, with event 118 if it held valid records (R478). -/
def Chip.advanceWptr (c : Chip) : Chip :=
  let w := (c.recd.wptr + 1) % 8192
  let c := { c with recd.wptr := w }
  if w % 128 = 0 then
    let s := (w / 128 + 1) % 64
    { c with recd.ersBusy := some s }.raiseIf (c.sectorValid s) 118 s
  else c

/-! Entering records (R474 to R477, R482). -/

/-- Records that occupy the buffer: those waiting and those being flushed, a gap record apart (R476). -/
def Recorder.held (r : Recorder) : Nat := r.buf.length + (r.flushing.filter (·.kind ≠ 1)).length

/-- A record of the same event and source waits or is being flushed (R477). -/
def Recorder.hasSame (r : Recorder) (evt src : Nat) : Bool :=
  (r.buf ++ r.flushing).any fun x => x.kind == 0 && x.evt == evt && x.src == src

/-- A record enters the buffer, is lost where the buffer is full, and asks for a flush where its event is routed to
SMBALERT# (R476, R477). -/
def Recorder.enter (r : Recorder) (x : Record) (alert : Bool) : Recorder :=
  if 64 ≤ r.held then { r with lost := satAdd 0xFFFF r.lost 1 }
  else { r with buf := r.buf ++ [{ x with optime := r.optime, pcyc := r.pcyc }],
                flReq := r.flReq || (alert && !r.hasSame x.evt x.src) }

/-- The newest buffered record takes another raising of the same event and source (R474). -/
def Recorder.merge? (r : Recorder) (x : Record) : Option Recorder :=
  match r.buf.getLast? with
  | some y =>
    if y.kind = 0 && y.evt = x.evt && y.src = x.src && y.rep < 255 then
      some { r with buf := r.buf.dropLast ++ [{ y with rep := y.rep + 1, data := x.seq }] }
    else none
  | none => none

/-- An event routed to the recorder (R474, R482). -/
def Recorder.event (r : Recorder) (seq stamp ev src : Nat) (alert : Bool) : Recorder :=
  let x : Record := { seq := seq, stamp := stamp, evt := ev, src := src, data := seq }
  if r.frozen then
    if (ev = 124 || ev = 125) && r.hold.length < 4 then { r with hold := r.hold ++ [(x, alert)] }
    else { r with frzCnt := r.frzCnt + 1 }
  else (r.merge? x).getD (r.enter x alert)

/-- The end of a freeze: the held records enter, then a freeze record holding FRZCNT (R482). -/
def Recorder.thaw (r : Recorder) : Recorder :=
  if !r.frozen then r else
  let n := r.frzCnt
  let h := r.hold
  let r := { r with frozen := false, frzCnt := 0, hold := [] }
  let r := h.foldl (fun r x => r.enter x.1 x.2) r
  r.enter { seq := 0, stamp := 0, kind := 2, data := n } false

/-- FLTH, 1 to 64, others as 64 (RECCFG). -/
def Chip.flth (c : Chip) : Nat :=
  let n := c.rf Reg.reccfg 0 7
  if 1 ≤ n && n ≤ 64 then n else 64

/-- Begin a flush: the gap record if records were lost, then the buffer (R476, R477). -/
def Recorder.begin (r : Recorder) : Recorder :=
  let gap : Record := { seq := 0, stamp := 0, kind := 1, data := r.lost, optime := r.optime, pcyc := r.pcyc }
  { r with flushing := r.flushing ++ (if r.lost = 0 then [] else [gap]) ++ r.buf,
           buf := [], lost := 0, flBusy := true, flWait := false, flReq := false }

/-- Start a flush that is due, unless one runs, the recorder is frozen or not ready, or too few positions are erased; a
power-fail flush waits for nothing (R477 to R479, R482). -/
def Chip.flushDue (c : Chip) : Chip :=
  let r := c.recd
  if !c.up .nvm || !r.ready || r.flBusy then c
  else if r.pfMode then (if r.flReq then { c with recd := r.begin } else c)
  else if !(r.flReq || c.flth ≤ r.buf.length) || r.frozen then c
  else
    let n := r.buf.length + b2n (r.lost ≠ 0)
    if n + 70 ≤ c.erasedRun (n + 70) r.wptr then { c with recd := r.begin }
    else { c with recd := { r with flWait := true } }

/-- RECORD_WRITTEN: the next record of the flush is programmed at WPTR, or fails to, and then the rest of the flush is
lost (R473, R476, R477, R481). -/
def Chip.recordWritten (c : Chip) (ok : Bool) : Chip :=
  match c.recd.flBusy, c.recd.flushing with
  | true, x :: rest =>
    if !c.up .nvm then c else
    let x := if x.kind = 0 then x else { x with seq := c.ev.seq, stamp := c.tg.tick }
    let a := recAddr c.recd.wptr
    if ok then
      let c := c.storeRecord a (x.bytesAt a)
      let c := { c with recd.flushing := rest, recd.empty := false }
      let gap := x.kind = 1 || (x.kind = 2 && x.data ≠ 0)
      let c := if gap then
          { (c.setBit Reg.recstat 0) with recd.gapSeq := x.seq, est.gapSeen := true }
        else c
      c.advanceWptr
    else
      let bs := (List.range 8).foldr (fun i l => wordBytes (Config.freeWord (c.freeIx + i)) ++ l) []
      let c := { c.storeRecord a bs with freeIx := c.freeIx + 8 }
      let c := { c with recd.flushing := [], recd.lost := satAdd 0xFFFF c.recd.lost (1 + rest.length),
                        recd.shipFail := true }
      (c.setBit Reg.recstat 1).advanceWptr
  | _, _ => c

/-- FLUSH_DONE, the recorder's part: a flush with nothing left to write ends with event 117 (R477). -/
def Chip.flushEnd (c : Chip) : Chip :=
  if c.up .nvm && c.recd.flBusy && c.recd.flushing.isEmpty then
    { c with recd.flBusy := false, recd.flTick := c.now }.raise 117
  else c

/-- FLUSH_TIMER: FLIV seconds since the last flush, with records waiting (R477). -/
def Chip.flushTimer (c : Chip) : Chip :=
  let n := c.rf Reg.reccfg 16 16
  if c.up .nvm && n ≠ 0 && !c.recd.buf.isEmpty && !c.recd.flBusy then
    { c.elapseTo (c.recd.flTick + n * 100000000) with recd.flReq := true }
  else c

/-- SECTOR_ERASE_DONE: the sector ahead is erased (R478). -/
def Chip.sectorErased' (c : Chip) : Chip :=
  match c.recd.ersBusy with
  | some s =>
    if c.up .nvm then { c.blank (recAddr (128 * s)) (recAddr (128 * s) + 4096) with recd.ersBusy := none } else c
  | none => c

/-! Start (R475, R480). -/

/-- The newest record: a position whose check passes and which an erased position follows (R480). -/
def Chip.newestPos (c : Chip) : Option Nat :=
  (List.range 8192).find? fun k => c.posErased (k + 1) && c.posValid k

/-- The snapshot area's byte at slot offset; unprogrammed bytes are erased. -/
def Chip.snapByte (c : Chip) (i : Nat) : Byte := (tget c.snap i).getD 0xFF

/-- A slot of the snapshot area holds a passing check (R484). -/
def Chip.snapValid (c : Chip) (s : Nat) : Bool :=
  let at_ (o n : Nat) := (List.range n).map fun i => c.snapByte (4096 * s + o + i)
  bytesVal (at_ 0xFFC 4) == (checkCtx (0x80000000 + word s) (at_ 0 0xFFC)).toNat

/-- The snapshot sequence number stored in a slot. -/
def Chip.snapSeqOf (c : Chip) (s : Nat) : Nat :=
  bytesVal ((List.range 4).map fun i => c.snapByte (4096 * s + i))

/-- The newest snapshot: the valid slot of the highest SNAPSEQ (R484, R486). -/
def Chip.snapNewest (c : Chip) : Option Nat :=
  (List.range 8).foldl (fun best s =>
    if !c.snapValid s then best else
    match best with
    | some b => if c.snapSeqOf b < c.snapSeqOf s then some s else best
    | none => some s) none

/-- The slot of the next snapshot: the first after the newest whose SNAPLOCK bit is clear (R484). -/
def Chip.snapSlot (c : Chip) : Option Nat :=
  let first := match c.recd.snapNew with | some s => s + 1 | none => 0
  ((List.range 8).map fun i => (first + i) % 8).find? fun s => !c.bit Reg.snaplock s

/-- Blank a slot of the snapshot area. -/
def Chip.snapErase (c : Chip) (s : Nat) : Chip :=
  { c with snap := c.snap.filter fun p => !(4096 * s ≤ p.1 && p.1 < 4096 * s + 4096) }

/-- Keep the next slot erased in advance (R484). -/
def Chip.snapAhead (c : Chip) : Chip := match c.snapSlot with | some s => c.snapErase s | none => c

/-- RECORDER_START: the recorder finds its place in the ring, restores OPTIME, PCYC and SNAPSEQ, erases ahead, writes a
boot record and is ready (R475, R480). -/
def Chip.recorderStart (c : Chip) : Chip :=
  if !c.up .nvm || c.recd.ready then c else
  let at_ (k o n : Nat) := bytesVal (c.flashBytes (recAddr k + o) n)
  let (w, op, pc) := (match c.newestPos with
    | some k => ((k + 1) % 8192, at_ k 0x10 4, at_ k 0x14 3)
    | none => (0, 0, 0))
  let sn := c.snapNewest
  let next := (w / 128 + 1) % 64
  let r := { c.recd with
    ready := true
    wptr := w
    empty := c.newestPos.isNone
    optime := op + c.recd.optime
    pcyc := (pc + 1) % 2 ^ 24
    ersBusy := if c.sectorErased next then none else some next
    snapNew := sn
    snapSeq := (match sn with | some s => c.snapSeqOf s | none => 0)
    flTick := c.now }
  let r : Recorder := { r with buf := r.buf.map fun x => { x with optime := r.optime, pcyc := r.pcyc } }
  let boot : Record := { seq := c.ev.seq, stamp := c.tg.tick, kind := 3, data := c.pwr.rstCause.toNat,
                         optime := r.optime, pcyc := r.pcyc }
  let c := { c with recd := { r with empty := false } }.storeRecord (recAddr w) (boot.bytesAt (recAddr w))
  c.advanceWptr.snapAhead

/-! Freeze (R482). -/

/-- A write of RECCTL: FLUSH asks for a flush, FREEZE starts or ends a freeze (R477, R482). -/
def Chip.writeRecctl (c : Chip) (v : Word) : Chip :=
  let c := if v.getLsbD 2 && c.up .nvm then { c with recd.flReq := true } else c
  if v.getLsbD 1 then
    (if c.recd.frozen || !c.up .nvm then c
     else { c with recd := { c.recd with frozen := true, frzAt := c.now, frzCnt := 0 } })
  else { c with recd := c.recd.thaw }

/-- FRZMAX_EXPIRY: a freeze ends after FRZMAX seconds (R482). -/
def Chip.frzmaxExpiry (c : Chip) : Chip :=
  if c.recd.frozen then
    let c := c.elapseTo (c.recd.frzAt + orOne (c.rf Reg.reccfg 8 8) * 100000000)
    { c with recd := c.recd.thaw }
  else c

/-- Power-fail at the recorder: any erase and snapshot in progress are abandoned, the freeze ends, and the flush is asked
for (R479). -/
def Chip.recPowerFail (c : Chip) : Chip :=
  let c := if c.recd.snapBusy.isSome then c.setBit Reg.snapstat 10 else c
  { c with recd := { c.recd.thaw with ersBusy := none, snapBusy := none, pfMode := true, flReq := true } }

/-! Views (R483). -/

/-- The record that a view shows at a ring position: its bytes, and whether it lies in the buffer. -/
def Chip.viewBytes (c : Chip) (k : Nat) : List Byte × Bool :=
  let wait := c.recd.flushing ++ c.recd.buf
  let i := (k + 8192 - c.recd.wptr) % 8192
  match wait[i]? with
  | some x => (x.bytesAt (recAddr k), true)
  | none => (c.flashBytes (recAddr k) 32, false)

/-- WINSTATv (Table 15.10). -/
def Chip.viewStat (c : Chip) (k : Nat) : Word :=
  let inbuf := (c.viewBytes k).2
  let valid := inbuf || c.posValid k
  let er := !inbuf && c.posErased k
  pack [(0, b2n valid), (1, b2n er), (2, b2n inbuf), (3, b2n (!valid && !er))]

/-- WINvw. -/
def Chip.viewWord (c : Chip) (v w : Nat) : Word :=
  word (bytesVal (((c.viewBytes (c.rf (Reg.cursor v) 0 13)).1.drop (4 * w)).take 4))

/-- Reading WINv7 advances the cursor (R483). -/
def Chip.viewAdvance (c : Chip) (v : Nat) : Chip :=
  c.setReg (Reg.cursor v) (word ((c.rf (Reg.cursor v) 0 13 + 1) % 8192))

/-- SNAPDATA: the word of the selected slot at the offset (R490). -/
def Chip.snapWord (c : Chip) : Word :=
  let s := c.rf Reg.snapsel 0 3
  let o := c.rf Reg.snapsel 4 12
  word (bytesVal ((List.range 4).map fun i => c.snapByte (4096 * s + o + i)))

/-- Each SNAPDATA read advances the offset by 4, modulo 4096 (R490). -/
def Chip.snapAdvance (c : Chip) : Chip :=
  c.putFld Reg.snapsel 4 12 ((c.rf Reg.snapsel 4 12 + 4) % 4096)

/-- SNAPSHOT_DONE: the snapshot is programmed; the next slot is erased in advance (R484, R485). -/
def Chip.snapshotDone (c : Chip) : Chip :=
  match c.recd.snapBusy with
  | some (s, bs) =>
    if !c.up .nvm then c else
    let c := c.snapErase s
    let cells := bs.mapIdx fun i b => (4096 * s + i, b)
    let c := { c with snap := cells.foldl (fun l (p : Nat × Byte) => tput (fun _ => 0xFF) l p.1 p.2) c.snap,
                      recd.snapBusy := none, recd.snapNew := some s }
    (c.setBit Reg.snapstat 8).snapAhead
  | none => c

/-- A snapshot is taken of 4092 bytes already laid out, or is lost where every slot is locked (R484, R485). -/
def Chip.takeSnapshot (c : Chip) (body : List Byte) : Chip :=
  if !c.up .nvm then c else
  match c.snapSlot, c.recd.snapBusy with
  | some s, none =>
    { c with recd.snapBusy := some (s, body ++ wordBytes (checkCtx (0x80000000 + word s) body)),
             recd.snapSeq := (c.recd.snapSeq + 1) % 2 ^ 32 }
  | _, _ => c.setBit Reg.snapstat 9

/-- The oldest valid position, in ring order from WPTR. -/
def Chip.oldestPos (c : Chip) : Nat :=
  (((List.range 8192).map fun i => (c.recd.wptr + i) % 8192).find? c.posValid).getD c.recd.wptr

/-- A read of a REC register (Table 15.10). -/
def readRec (c : Chip) (a : Nat) : Word :=
  let r := c.recd
  let waiting := r.flushing.length + r.buf.length
  if a = Reg.recctl then pack [(1, b2n r.frozen)]
  else if a = Reg.recstat then
    c.reg a ||| pack [(5, b2n r.ready), (4, b2n r.ersBusy.isSome), (3, b2n r.flWait), (2, b2n r.flBusy)]
  else if a = Reg.wptr then word r.wptr
  else if a = Reg.newest then
    pack [(0, (r.wptr + waiting + 8191) % 8192), (31, b2n (r.empty && waiting == 0))]
  else if a = Reg.oldest then word c.oldestPos
  else if a = Reg.bufcnt then pack [(0, r.held), (8, r.hold.length)]
  else if a = Reg.lostReg then word r.lost
  else if a = Reg.frzcnt then word r.frzCnt
  else if a = Reg.optime then word r.optime
  else if a = Reg.pcyc then word r.pcyc
  else if a = Reg.gapseq then word r.gapSeq
  else if a = Reg.winstat 0 then c.viewStat (c.rf (Reg.cursor 0) 0 13)
  else if a = Reg.winstat 1 then c.viewStat (c.rf (Reg.cursor 1) 0 13)
  else if Reg.win0 0 ≤ a && a < Reg.win0 8 then c.viewWord 0 ((a - Reg.win0 0) / 4)
  else if Reg.win1 0 ≤ a && a < Reg.win1 8 then c.viewWord 1 ((a - Reg.win1 0) / 4)
  else if a = Reg.snapstat then
    c.reg a ||| pack [(0, r.snapNew.getD 0), (3, b2n r.snapNew.isNone)] |||
      pack ((List.range 8).map fun s => (16 + s, b2n (c.snapValid s)))
  else if a = Reg.snapdata then c.snapWord
  else c.reg a

/-- A write to a REC register. -/
def writeRec (c : Chip) (a : Nat) (v : Word) : Chip :=
  if a = Reg.recctl then c.writeRecctl v else c.plainWrite a v

end Sys2Proof.Machine
end

