-- ==== Sys2Proof/Machine/Twb.lean ====
section
/-! DEFINITION. The two-wire buses besides the PMBus commands: packet error code, alerts and requests, sleep, stuck lines,
the host-bus controller, the local bus, and the TWB0 and TWB1 registers (R514, R516, R517, R523, R527 to R541; log 37,
38). -/

namespace Sys2Proof.Machine

/-! Packet error code (R515: SMBus 3.1's CRC-8; log 37). -/

/-- One bit of the CRC-8 with polynomial x^8 + x^2 + x + 1, most significant bit first. -/
def pecShift (s : Byte) : Byte := if s.getLsbD 7 then (s <<< 1) ^^^ 0x07 else s <<< 1

/-- One byte of the CRC-8. -/
def pecByte (s b : Byte) : Byte := (List.range 8).foldl (fun s _ => pecShift s) (s ^^^ b)

/-- The packet error code of the bytes of a message, addresses included. -/
def pecOf (bs : List Byte) : Byte := bs.foldl pecByte 0

/-! Addresses and status. -/

/-- The strap offset of a voltage on ADDR (R65). -/
def strapOffset (uv : Nat) : Nat := ((List.range 15).filter fun k => k * 100000 + 50000 < uv).length

/-- TWB0's address (R65, R514). -/
def Chip.twbAddr (c : Chip) : Nat := 0x50 + c.twb0.strap

/-- STATUS_CML gains a bit (R524). -/
def Chip.cml (c : Chip) (i : Nat) : Chip := { c with twb0.cml := c.twb0.cml ||| (1#8 <<< i) }

/-- The page index of PSTATi for a page number (Table 17.6). -/
def pageIndex (p : Nat) : Option Nat :=
  if p < 0x80 then some p
  else if p < 0x84 then some (128 + (p - 0x80))
  else if 0x90 ≤ p && p < 0xA0 then some (132 + (p - 0x90))
  else none

/-! STATUS_WORD (R523, Table 17.3). -/

/-- An event's latched bits: pairs of page index and bit. -/
def statusBits (ev src : Nat) : List (Nat × Nat) :=
  let l0 (b : Nat) : Nat × Nat := (128, b)
  let slot (b : Nat) : List (Nat × Nat) := if src < 128 then [(src, b)] else []
  if ev = 48 then [l0 15, l0 5]
  else if ev = 49 then [l0 15]
  else if ev = 51 || ev = 52 then [l0 14, l0 4]
  else if ev = 50 || ev = 58 || ev = 59 then [l0 14]
  else if ev = 1 then [l0 13]
  else if ev = 8 then [l0 13, l0 3]
  else if (53 ≤ ev && ev ≤ 57) || ev = 63 then [l0 12]
  else if (32 ≤ ev && ev ≤ 34) || ev = 83 || (85 ≤ ev && ev ≤ 91) then slot 12
  else if 80 ≤ ev && ev ≤ 82 then slot 2 ++ (if ev = 80 && src = 0x80 then [l0 2] else [])
  else if (64 ≤ ev && ev ≤ 79) || ev = 94 then (if src < 16 then [(132 + src, 12)] else [])
  else []

/-- One latched bit is set; STATUS_MFR_SPECIFIC keeps the latest event that set bit 12, and [7] after a second. -/
def Chip.setStatus (c : Chip) (ev : Nat) (p : Nat × Nat) : Chip :=
  let a := Reg.pstat p.1
  let old := c.reg a
  let c := c.setBit a p.2
  if p.2 = 12 then c.putFld a 16 8 (ev + (if old.getLsbD 12 || fld old 16 8 ≠ 0 then 0x80 else 0)) else c

/-- A numbered event at the status words. -/
def Chip.statusEvent (c : Chip) (ev src : Nat) : Chip :=
  if c.up .ifc then (statusBits ev src).foldl (fun c p => c.setStatus ev p) c else c

/-- OFF, as it is (Table 17.3 bit 6). -/
def Chip.pageOff (c : Chip) (i : Nat) : Bool :=
  if i < 128 then (c.hslot i).sentMode ≠ 1
  else if i < 132 then !c.loopEn (i - 128)
  else !((c.rail (i - 132)).st matches .rising | .good)

/-- STATUS_WORD of a page index, with STATUS_MFR_SPECIFIC above it (R523). -/
def Chip.pstat (c : Chip) (i : Nat) : Word :=
  let w := c.reg (Reg.pstat i)
  let pg := if i = 128 then c.pwr.cur != .regulating else 132 ≤ i && !(c.rail (i - 132)).pgq
  let live := w ||| pack [(11, b2n pg), (6, b2n (c.pageOff i)), (1, b2n (c.twb0.cml ≠ 0))]
  live ||| pack [(0, b2n (fld live 8 8 ≠ 0))]

/-- CLEAR_FAULTS on one page (R523). -/
def Chip.clearPage (c : Chip) (i : Nat) : Chip := c.setReg (Reg.pstat i) 0

/-! Alerts and in-band requests (R527 to R531). -/

/-- Any bit of ALRTPEND. -/
def Chip.anyAlert (c : Chip) : Bool := (List.range 4).any fun i => c.reg (Reg.alrtpend i) ≠ 0

/-- SMBALERT# is driven low (R527). -/
def Chip.alertDriven (c : Chip) : Bool := c.up .ifc && c.bit Reg.twbctl 4 && c.twb0.armed && c.anyAlert

/-- An event routed with ALERT = 1 (R527). -/
def Chip.alertEvent (c : Chip) (e : Nat) : Chip :=
  if c.up .ifc then { c.setBit (Reg.alrtpend (e / 32)) (e % 32) with twb0.armed := true } else c

/-- An event routed with IBR = 1 (R529). -/
def Chip.ibrEvent (c : Chip) (e : Nat) : Chip :=
  if c.up .ifc then { c.setBit (Reg.ibrpend (e / 32)) (e % 32) with twb0.reqAct := true } else c

/-- The in-band request is pending (R529). -/
def Chip.reqPending (c : Chip) : Bool := c.up .ifc && c.twb0.reqAct && c.bit Reg.twbctl 3

/-- Records between CURSOR1 and NEWEST number at least RNFTH (R529). -/
def Chip.recNotice (c : Chip) : Bool :=
  let n := readRec c Reg.newest
  c.up .ifc && c.up .sup && c.up .nvm && !n.getLsbD 31 &&
    decide (c.rf Reg.notice 16 16 ≤ (fld n 0 13 + 1 + 8192 - c.rf (Reg.cursor 1) 0 13) % 8192)

/-- RECNF follows the recorder; its setting asks for attention. An interface with something to say is awake (R516,
R529). -/
def Chip.twbFollow (c : Chip) : Chip :=
  if !c.up .ifc then c else
  let nf := c.recNotice
  let c := { c with twb0.recNf := nf, twb0.reqAct := c.twb0.reqAct || (nf && !c.twb0.recNf) }
  if c.alertDriven || c.reqPending || c.twb0.cBusy then { c with twb0.asleep := false } else c

/-- The host bus was active until now. -/
def Chip.busActive (c : Chip) : Chip := { c with twb0.idleAt := c.now }

/-- The reply to a read of 0x0C or 0x0A: the address in [7:1], and the PEC that follows it if clocked (R515, R528). -/
def Chip.araReply (c : Chip) (at_ : Nat) : List Byte :=
  let b := BitVec.ofNat 8 (2 * c.twbAddr)
  [b, pecOf [BitVec.ofNat 8 (2 * at_ + 1), b]]

/-- ALERT_RESPONSE (R528). -/
def Chip.alertResponse (c : Chip) (won meanwhile : Bool) : Chip :=
  if !c.alertDriven || !c.bit Reg.twbctl 0 then c
  else if won then { c.busActive with twb0.armed := meanwhile, twb0.reply := c.araReply 0x0C }
  else { c.busActive with twb0.reply := [] }

/-- REQUEST_RESPONSE (R531). -/
def Chip.requestResponse (c : Chip) (won meanwhile : Bool) : Chip :=
  if !c.reqPending || !c.bit Reg.twbctl 0 then c
  else if won then { c.busActive with twb0.reqAct := meanwhile, twb0.reply := c.araReply 0x0A }
  else { c.busActive with twb0.reply := [] }

/-- IN_BAND_REQUEST_PULSE: REQIV after the previous pulse; a pulse that meets a falling SCL is made again (R530). -/
def Chip.requestPulse (c : Chip) (collides : Bool) : Chip :=
  if !c.reqPending || c.twb0.cBusy then c else
  let c := (match c.twb0.pulseAt with
    | some t => c.elapseTo (t + Nat.max 10 (c.rf Reg.timcfg 8 8) * 100000)
    | none => c)
  if collides then { c with twb0.pulseAt := none }.setBit Reg.twbstat 9
  else { c with twb0.pulseAt := some c.now }

/-! Sleep and stuck lines (R516, R517). -/

/-- SLEEP: SLPIDLE ms of bus idle (R516). -/
def Chip.twbSleep (c : Chip) : Chip :=
  if !c.up .ifc || !c.bit Reg.twbctl 2 || c.alertDriven || c.reqPending || c.twb0.cBusy then c
  else { c.elapseTo (c.twb0.idleAt + orOne (c.rf Reg.timcfg 0 8) * 100000) with twb0.asleep := true }

/-- WAKE_NACK: the address byte is not acknowledged in sleep, and the interface wakes (R516). -/
def Chip.wakeNack (c : Chip) : Chip :=
  if !c.up .ifc || !c.twb0.asleep then c
  else
    let c := ((c.setBit Reg.twbstat 7).raise 100).count Reg.twbcnt 24 8 1
    { c.busActive with twb0.asleep := false, twb0.nacked := true }

/-- SCL_TIMEOUT: TWB0 abandons its transaction (R517). -/
def Chip.sclTimeout (c : Chip) : Chip :=
  if !c.up .ifc then c
  else { ((c.setBit Reg.twbstat 4).raise 96).count Reg.twbcnt 8 8 1 with
           twb0.cBusy := false, twb0.cBack := none, twb0.reply := [] }

/-- SDA_TIMEOUT (R517). -/
def Chip.sdaTimeout (c : Chip) : Chip :=
  if c.up .ifc then ((c.setBit Reg.twbstat 5).raise 97).count Reg.twbcnt 8 8 1 else c

/-! The controller on the host bus (R532, R533). -/

/-- The bytes of CTLBUF or LWBUF from word register `a` on. -/
def Chip.bufBytes (c : Chip) (a n : Nat) : List Byte :=
  (List.range n).map fun i => BitVec.ofNat 8 (c.rf (a + i / 4 * 4) (8 * (i % 4)) 8)

/-- The bytes of the controller's transaction: address, data, and PEC where asked for (R532). -/
def Chip.ctlBytes (c : Chip) : List Byte :=
  let v := c.reg Reg.ctlctl
  let bs := BitVec.ofNat 8 (2 * fld v 0 7) :: c.bufBytes (Reg.ctlbuf 0) (fld v 8 5 + 1)
  if v.getLsbD 16 then bs ++ [pecOf bs] else bs

/-- Arbitration is lost: event 98, LOSS, and a back-off, or ARBFAIL after RETRY retries (R533). -/
def Chip.ctlLost (c : Chip) : Chip :=
  let c := (c.raise 98).count Reg.twbcnt 16 8 1
  let c := { c with twb0.cLoss := satAdd 15 c.twb0.cLoss 1 }
  if c.rf Reg.ctlctl 17 3 ≤ c.twb0.cTries then { c with twb0.cBusy := false, twb0.cBack := none }.setBit Reg.ctlstat 3
  else { c with twb0.cTries := c.twb0.cTries + 1,
                twb0.cBack := some (c.now + (c.twb0.strap + 1) * (orOne (c.rf Reg.timcfg 16 8) * 1000)) }

/-- An attempt at the controller's transaction. -/
def Chip.ctlAttempt (c : Chip) : Attempt → Chip
  | .runs => { c with twb0.cBack := none, twb0.ctlOut := c.ctlBytes }
  | .lost => c.ctlLost

/-- A write to CTLCTL: with GO while idle, the transaction starts (R532, R533). -/
def Chip.writeCtlctl (c : Chip) (v : Word) (a : Attempt) : Chip :=
  let c := c.plainWrite Reg.ctlctl v
  if !v.getLsbD 24 || c.twb0.cBusy then c
  else { c with twb0.cBusy := true, twb0.cTries := 0, twb0.cLoss := 0, twb0.cBack := none }.ctlAttempt a

/-- BACKOFF_EXPIRY: the transaction is tried again (R533). -/
def Chip.backoffExpiry (c : Chip) (a : Attempt) : Chip :=
  match c.up .ifc && c.twb0.cBusy, c.twb0.cBack with
  | true, some t => (c.elapseTo t).ctlAttempt a
  | _, _ => c

/-- CONTROLLER_DONE: STOP; DONE, or NACK (R532). -/
def Chip.controllerDone (c : Chip) (nacked : Bool) : Chip :=
  if !(c.up .ifc && c.twb0.cBusy && c.twb0.cBack.isNone) then c
  else { c.busActive with twb0.cBusy := false }.setBit Reg.ctlstat (if nacked then 2 else 1)

/-! TWB0 registers (R537 to R539). -/

/-- A read of a TWB0 register. -/
def readTwb0 (c : Chip) (a : Nat) : Word :=
  let t := c.twb0
  if a = Reg.twbstat then
    c.reg a ||| pack [(3, b2n c.reqPending), (2, b2n c.alertDriven), (1, b2n t.asleep)]
  else if a = Reg.twbaddr then pack [(0, c.twbAddr), (8, t.strap)]
  else if a = Reg.pmbstate then pack [(0, t.page), (8, t.wprot), (16, t.cml.toNat)]
  else if a = Reg.notice then c.reg a ||| pack [(0, b2n t.tlm), (1, b2n t.recNf)]
  else if a = Reg.hcmdq then
    (match t.hcq with | h :: _ => pack [(0, h.page), (8, h.cmd), (16, h.data)] | [] => 0)
  else if a = Reg.hcmdinf then
    pack [(0, t.hcq.length), (8, b2n (!t.hcq.isEmpty)), (9, b2n ((t.hcq.head?.map (·.byte)).getD false))]
  else if a = Reg.ctlctl then c.reg a ||| pack [(24, b2n t.cBusy)]
  else if a = Reg.ctlstat then c.reg a ||| pack [(0, b2n t.cBusy), (8, t.cLoss)]
  else if Reg.pstat 0 ≤ a && a < Reg.pstat 148 then c.pstat ((a - Reg.pstat 0) / 4)
  else c.reg a

/-- A write to a TWB0 register, GO of the controller apart. -/
def writeTwb0 (c : Chip) (a : Nat) (v : Word) : Chip :=
  if a = Reg.twbctl then c.plainWrite a (if fld v 5 2 = 3 then put v 5 2 (c.rf Reg.twbctl 5 2) else v)
  else if a = Reg.notice then
    let c := c.plainWrite a v
    if v.getLsbD 0 then { c with twb0.tlm := true, twb0.reqAct := true } else c
  else if a = Reg.hcmdpop then (if v.getLsbD 0 then { c with twb0.hcq := c.twb0.hcq.tail } else c)
  else if a = Reg.winlock then (if v.getLsbD 0 then c.setReg a 1 else c)
  else if a = Reg.ctlctl then c.writeCtlctl v .runs
  else c.plainWrite a v

/-- TWB0 as IFC leaves reset: ADDR is sampled (R65, R66). -/
def Chip.twbInit (c : Chip) : Chip := { c with twb0 := { strap := strapOffset Config.addrMicrovolt, idleAt := c.now } }

/-! The local bus (R534 to R536, R540, R541). -/

/-- The bytes TWB1 sends in a transaction (R534). -/
def Chip.localBytes (c : Chip) : List Byte :=
  let v := c.reg Reg.lxfer
  let a := fld v 0 7
  let w := BitVec.ofNat 8 (2 * a) :: c.bufBytes (Reg.lwbuf 0) (fld v 8 5)
  if fld v 16 5 = 0 then (if c.bit Reg.lctl 3 then w ++ [pecOf w] else w)
  else (if fld v 8 5 = 0 then [] else w) ++ [BitVec.ofNat 8 (2 * a + 1)]

/-- A write to LXFER: with GO, EN and an idle bus the transaction starts, after a recovery where SDA is low (R534,
R535). -/
def Chip.writeLxfer (c : Chip) (v : Word) (sda : LocalSda) : Chip :=
  if c.twb1.busy then c else
  let wl := fld v 8 5
  let rl := fld v 16 5
  let c := c.plainWrite Reg.lxfer v
  if !v.getLsbD 24 || !c.bit Reg.lctl 0 || (wl = 0 && rl = 0) || 16 < wl || 16 < rl then c
  else
    let go (c : Chip) : Chip := { c with twb1.busy := true, twb1.out := c.localBytes }
    match sda with
    | .high => go c
    | .freedAt _ => go (((c.raise 101).setBit Reg.lstat 5).count Reg.lcnt 0 16 1)
    | .stuck => c.setBit Reg.lstat 3

/-- Store bytes into the word registers from `a` on. -/
def Chip.putBufBytes (c : Chip) (a : Nat) (bs : List Byte) : Chip :=
  bs.zipIdx.foldl (fun c p => c.putFld (a + p.2 / 4 * 4) (8 * (p.2 % 4)) 8 p.1.toNat) c

/-- LOCAL_TRANSFER_DONE with the bytes and the PEC received (R534, R536). -/
def Chip.localDone (c : Chip) (nacked : Bool) (bytes : List Byte) (pec : Byte) : Chip :=
  if !(c.up .ifc && c.twb1.busy) then c else
  let c := { c with twb1.busy := false }
  if nacked then ((c.raise 102).setBit Reg.lstat 2).count Reg.lcnt 16 16 1
  else
    let rl := c.rf Reg.lxfer 16 5
    let got := bytes.take rl
    let c := c.putBufBytes (Reg.lrbuf 0) got
    let c := if 0 < rl && c.bit Reg.lctl 3 && pecOf (c.twb1.out ++ got) ≠ pec then c.setBit Reg.lstat 6 else c
    c.setBit Reg.lstat 1

/-- LOCAL_SCL_TIMEOUT (R536). -/
def Chip.localTimeout (c : Chip) : Chip :=
  if c.up .ifc && c.twb1.busy then { c with twb1.busy := false }.setBit Reg.lstat 4 else c

/-- A read of a TWB1 register. -/
def readTwb1 (c : Chip) (a : Nat) : Word :=
  if a = Reg.lstat then c.reg a ||| pack [(0, b2n c.twb1.busy)]
  else if a = Reg.lxfer then c.reg a ||| pack [(24, b2n c.twb1.busy)]
  else c.reg a

/-- A write to a TWB1 register, GO with a low SDA apart. -/
def writeTwb1 (c : Chip) (a : Nat) (v : Word) : Chip :=
  if a = Reg.lctl then c.plainWrite a (if fld v 1 2 = 3 then put v 1 2 (c.rf Reg.lctl 1 2) else v)
  else if a = Reg.lxfer then c.writeLxfer v .high
  else c.plainWrite a v

end Sys2Proof.Machine
end

