-- ==== Sys2Proof/Machine/Upd.lean ====
section
/-! DEFINITION. Program update: the boot-control log, the update channel and its commands, the image header and the end
check, the trial, and the UPD registers (R542 to R558, R562, R563; log 39). -/

namespace Sys2Proof.Machine

/-! The boot-control log (R553, R555). -/

/-- A boot-control entry (Table 18.4). -/
structure BootEntry where
  pos     : Nat
  lseq    : Nat
  slot    : Nat
  trial   : Bool
  incompl : Bool
  tries   : Nat
  iver    : Nat
  deriving DecidableEq, Repr

/-- Address of an entry's position. -/
def bootLogAt (k : Nat) : Nat := 0xFE000 + 32 * k

/-- The first 28 bytes of an entry. -/
def BootEntry.body (e : BootEntry) : List Byte :=
  natBytes 4 e.lseq ++ natBytes 1 e.slot ++ natBytes 1 (b2n e.trial + 2 * b2n e.incompl + 4 * e.tries) ++ natBytes 2 0 ++
    natBytes 4 e.iver ++ natBytes 16 0

/-- The entry at a position, if its check passes. -/
def Chip.bootEntryAt (c : Chip) (k : Nat) : Option BootEntry :=
  let a := bootLogAt k
  let b := c.flashBytes a 32
  let n (o len : Nat) := bytesVal ((b.drop o).take len)
  if (List.range 4).all (fun i => c.erased (a + 8 * i)) then none
  else if n 28 4 ≠ (checkCtx (word a) (b.take 28)).toNat then none
  else some { pos := k, lseq := n 0 4, slot := n 4 1, trial := Nat.testBit (n 5 1) 0, incompl := Nat.testBit (n 5 1) 1,
              tries := n 5 1 / 4 % 4, iver := n 8 4 }

/-- The newest valid entry: the one with the highest LSEQ. -/
def Chip.bootNewest (c : Chip) : Option BootEntry :=
  ((List.range 256).filterMap c.bootEntryAt).foldl (fun m e =>
    match m with
    | some x => if x.lseq < e.lseq then some e else m
    | none => some e) none

/-- The position after the newest entry, and its LSEQ. -/
def Chip.bootNext (c : Chip) : Nat × Nat :=
  match c.bootNewest with
  | some e => ((e.pos + 1) % 256, e.lseq + 1)
  | none => (0, 0)

/-- The sector that a position opens is erased first (R555). -/
def Chip.bootOpen (c : Chip) (k : Nat) : Chip :=
  if k % 128 = 0 then c.blank (bootLogAt k) (bootLogAt (k + 128)) else c

/-- Program an entry at its position. -/
def Chip.bootStore (c : Chip) (e : BootEntry) : Chip :=
  c.storeRecord (bootLogAt e.pos) (e.body ++ wordBytes (checkCtx (word (bootLogAt e.pos)) e.body))

/-- Append an entry at the position after the newest (R555). -/
def Chip.bootAppend (c : Chip) (slot : Nat) (trial incompl : Bool) (tries iver : Nat) : Chip :=
  let n := c.bootNext
  (c.bootOpen n.1).bootStore ⟨n.1, n.2, slot, trial, incompl, tries, iver⟩

/-! The channel (R545, R546). -/

/-- The shelf is in RECOVERY, or its boot ROM is. -/
def Chip.inRecovery (c : Chip) : Bool := c.pwr.cur == .recovery

/-- A refusal (R546). -/
def Chip.updRefuse (c : Chip) (reason : Nat) : Chip :=
  let u := c.upd
  ({ c with upd := { u with phase := 0, reason := reason, rx := [], timeAt := none,
                            owner := if u.incompl then u.owner else none } }.setBit Reg.updstat 7).raise 120 reason

/-- The guards of BEGIN and ACTIVATE, then plan S's power limit where it is tested (Table 18.3). -/
def Chip.updGuard (c : Chip) (power : Bool) : Option Nat :=
  if c.inRecovery then none
  else if c.bit Reg.updguard 0 || c.pwr.cur == .ship then some 1
  else if c.bit Reg.updguard 1 then some 3
  else if c.upd.stale || c.rf Reg.socmean 0 14 < c.rf Reg.updguard 16 14 then some 2
  else if power && !c.planD && (c.reg Reg.updplim).toNat < c.gate.psh.natAbs then some 4
  else none

/-- UPDSTAT.BUSY: data is not taken (Table 18.7). -/
def Chip.updBusy (c : Chip) : Bool :=
  let u := c.upd
  u.phase = 2 || u.phase = 3 || u.phase = 5 || (u.phase = 1 && 128 ≤ u.rx.length)

/-- The command comes from another source than the owner's (R545). -/
def Chip.updForeign (c : Chip) (fw : Bool) : Bool := match c.upd.owner with | some o => o != fw | none => false

/-- BEGIN (R546). -/
def Chip.updBegin (c : Chip) (fw : Bool) : Chip :=
  if c.upd.phase ≠ 0 || c.updForeign fw then c.updRefuse 15
  else match c.updGuard true with
    | some r => c.updRefuse r
    | none => { c with upd := { c.upd with phase := 1, owner := some fw, rx := [], got := 0, sigOk := false, timeAt := none } }

/-- ABORT (R546). -/
def Chip.updAbort (c : Chip) (fw : Bool) : Chip :=
  if c.updForeign fw then c.updRefuse 15
  else if c.upd.phase = 0 then c else c.updRefuse 14

/-- First address and size of the region an image of this kind is for (R542, R548, R556). -/
def Chip.updRegion (c : Chip) (kind : Nat) : Nat × Nat :=
  if kind = 1 then (0, 0x10000)
  else if !c.planD then (0x10000, 0xE0000)
  else if c.upd.slot = 1 && !c.inRecovery then (0x80000, 0x70000) else (0x10000, 0x70000)

/-- A slot's code (Table 18.4) by the region's base. -/
def Chip.updSlot (c : Chip) : Nat := if !c.planD then 0 else if c.upd.base = 0x80000 then 2 else 1

/-- ACTIVATE (R546, R551, R552, R556). -/
def Chip.updActivate (c : Chip) (fw : Bool) : Chip :=
  if c.updForeign fw then c.updRefuse 15
  else if c.upd.phase ≠ 6 then c
  else match c.updGuard false with
    | some r => c.updRefuse r
    | none =>
      let app := c.planD && c.upd.kind = 0
      let iver := (c.reg Reg.updiver).toNat
      if c.inRecovery then
        (if app then c.bootAppend 1 false false 0 iver else c).systemReset 5
      else (if app then c.bootAppend c.updSlot true false 0 iver else c).supRestart

/-- PLANSGO (R546, R549). -/
def Chip.updPlansgo (c : Chip) : Chip :=
  if c.upd.phase ≠ 2 then c
  else if !c.inRecovery && (c.reg Reg.updplim).toNat < c.gate.psh.natAbs then c.updRefuse 4
  else
    let c := if c.up .hub then c.setBit Reg.holdctl 0 else c
    let c := c.bootAppend 0 false true 0 (c.reg Reg.updiver).toNat
    { c with upd := { c.upd with holdSet := c.up .hub, incompl := true, phase := 3, eraseAt := c.now, timeAt := some c.now } }

/-- CONFIRM from the trial image (R554). -/
def Chip.updConfirm (c : Chip) : Chip :=
  if !c.upd.trial then c else
  let iver := (match c.bootNewest with | some e => e.iver | none => 0)
  ({ c with upd.trial := false, upd.bTrial := false }.bootAppend c.upd.slot false false 0 iver).raise 121

/-- An update command by its code, from firmware or the host (R545, R546, R554, R556, R558). -/
def Chip.updCommand (c : Chip) (fw : Bool) : Nat → Chip
  | 1 => c.updBegin fw
  | 2 => c.updActivate fw
  | 3 => c.updAbort fw
  | 4 => c.updPlansgo
  | 5 => c.updConfirm
  | 6 => { c with pwr.rcvReq := true }
  | 7 => c.raise 123
  | 8 => { c with upd.trial := true, upd.trialAt := c.now }
  | _ => c

/-! Data (R545, R548). -/

/-- Program the bytes that make whole 8-byte words from an address on. -/
def Chip.updProgram (c : Chip) : Nat → Nat → List Byte → Chip
  | 0, _, _ => c
  | n + 1, a, bs =>
    let c := c.flashStore a (word (bytesVal (bs.take 4))) (word (bytesVal ((bs.drop 4).take 4))) none
    c.updProgram n (a + 8) (bs.drop 8)

/-- Data received is programmed as far as it makes words; after the last body byte the checks begin (R547, R548). -/
def Chip.updDrain (c : Chip) : Chip :=
  let u := c.upd
  let n := u.rx.length / 8
  let c := c.updProgram n (u.base + (u.got - u.rx.length)) u.rx
  let c := { c with upd.rx := u.rx.drop (8 * n) }
  if 0x80 + u.len ≤ u.got then { c with upd.phase := 5 } else c

/-- Data is taken while a header or body is awaited; after a failed plan S write a new header is, without BEGIN (R550). -/
def Chip.updTake (c : Chip) (bs : List Byte) : Chip :=
  let u := c.upd
  if u.phase = 0 then { c with upd := { u with phase := 1, rx := bs, got := bs.length } }
  else
    let c := { c with upd.rx := u.rx ++ bs, upd.got := u.got + bs.length }
    if u.phase = 4 then c.updDrain else c

/-- Data of a source that does not own the channel, or with no update open, is refused with reason 15 (R545). -/
def Chip.updDataBad (c : Chip) (fw : Bool) : Bool :=
  c.upd.owner ≠ some fw || (c.upd.phase = 0 && !c.upd.incompl) || c.upd.phase = 6

/-- A write to UPDDATA (Table 18.6). -/
def Chip.writeUpddata (c : Chip) (v : Word) : Chip :=
  if c.updBusy then c.setBit Reg.updstat 15
  else if c.updDataBad true then c.updRefuse 15
  else c.updTake (wordBytes v)

/-! The header (R543, R546, R547). -/

/-- A little-endian field of received bytes. -/
def field (b : List Byte) (o n : Nat) : Nat := bytesVal ((b.drop o).take n)

/-- The first header test that fails (Table 18.3). -/
def Chip.headerRefusal (c : Chip) (h : List Byte) : Option Nat :=
  let kind := field h 0x0E 1
  let (base, size) := c.updRegion kind
  let len := field h 0x10 4
  let entry := field h 0x18 4
  if h.take 4 ≠ [0x5A, 0x4F, 0x41, 0x4E] then some 5
  else if field h 0x3C 4 ≠ (check (h.take 0x3C)).toNat then some 10
  else if field h 4 2 ≠ 1 then some 6
  else if field h 6 2 ≠ 0x1280 then some 7
  else if 1 < kind || (kind = 1 && !c.inRecovery) then some 8
  else if field h 0x14 4 ≠ base + 0x80 || size < len + 0x80 || entry < base + 0x80 || base + 0x80 + len ≤ entry then some 9
  else if field h 0x0C 2 < c.rf Reg.sfvcur 0 16 then some 11
  else if c.keyFused && field h 0x0F 1 % 2 = 0 then some 12
  else none

/-- HEADER_TEST_DONE (R547 to R549). -/
def Chip.headerTestDone (c : Chip) : Chip :=
  let u := c.upd
  if !c.up .sup || u.phase ≠ 1 || u.rx.length < 128 then c
  else
    let h := u.rx.take 128
    match c.headerRefusal h with
    | some r => c.updRefuse r
    | none =>
      let kind := field h 0x0E 1
      let waits := !c.planD && kind = 0 && !c.inRecovery
      let c := { c with upd := { u with
        phase := if waits then 2 else 3
        base := (c.updRegion kind).1
        len := field h 0x10 4
        kind := kind
        signed := field h 0x0F 1 % 2 = 1
        eraseAt := c.now } }
      (c.setReg Reg.updiver (word (field h 8 4))).raise 119 kind

/-- UPDATE_ERASE_DONE: the sectors that header and body span are blank, 20 ms each, and data is taken (R548). -/
def Chip.updateEraseDone (c : Chip) : Chip :=
  let u := c.upd
  if !c.up .sup || u.phase ≠ 3 then c
  else
    let n := (0x80 + u.len + 4095) / 4096
    let c := c.elapseTo (u.eraseAt + n * 2000000)
    ({ c.blank u.base (u.base + 4096 * n) with upd.phase := 4 }).updDrain

/-! The end check (R544, R547, R550). -/

/-- The signature and the key hash pass (R544). -/
def Chip.signatureOk (c : Chip) : Bool :=
  let u := c.upd
  let h := c.flashBytes u.base 128
  let body := c.flashBytes (u.base + 0x80) u.len
  let key := body.drop (u.len - 64)
  sha256 key = c.keyHash && ecdsaOk key ((h.drop 0x40).take 64) (sha256 (h.take 0x40 ++ body))

/-- END_CHECK_DONE: BCHK, then signature and key where a key is fused; DONE, with the READY entry under plan S (R546,
R550). -/
def Chip.endCheckDone (c : Chip) : Chip :=
  let u := c.upd
  if !c.up .sup || u.phase ≠ 5 then c
  else if field (c.flashBytes u.base 128) 0x1C 4 ≠ (check (c.flashBytes (u.base + 0x80) u.len)).toNat then c.updRefuse 13
  else if c.keyFused && !(u.signed && c.signatureOk) then c.updRefuse 12
  else
    let c := if !c.planD && u.kind = 0 then c.bootAppend 0 false false 0 (c.reg Reg.updiver).toNat else c
    { c with upd := { c.upd with phase := 6, sigOk := c.keyFused, incompl := false, timeAt := none } }

/-! Timers (R546, R554, R562). -/

/-- UPDTIME_EXPIRY. -/
def Chip.updtimeExpiry (c : Chip) : Chip :=
  match c.up .sup, c.upd.timeAt with
  | true, some t => (c.elapseTo (t + orOne (c.rf Reg.updtime 0 8) * 100000000)).updRefuse 14
  | _, _ => c

/-- TRIAL_EXPIRY. -/
def Chip.trialExpiry (c : Chip) : Chip :=
  if !(c.up .sup && c.upd.trial) then c
  else
    let c := c.elapseTo (c.upd.trialAt + orOne (c.rf Reg.trialcfg 0 16) * 100000000)
    { c with upd.trial := false }.supRestart

/-- SOCMEAN_STALE. -/
def Chip.socmeanStale (c : Chip) : Chip :=
  if !c.up .sup || c.upd.stale then c else { c.elapseTo (c.upd.socAt + 1000000000) with upd.stale := true }

/-! UPD registers (R562, R563). -/

/-- UPDSTAT (Table 18.7). -/
def Chip.updstat (c : Chip) : Word :=
  let u := c.upd
  c.reg Reg.updstat ||| pack [(14, b2n u.sigOk), (13, b2n u.trial), (12, b2n u.holdSet), (8, u.reason),
    (6, b2n (u.owner = some true)), (5, b2n c.updBusy), (0, u.phase)]

/-- A read of a UPD register. -/
def readUpd (c : Chip) (a : Nat) : Word :=
  let u := c.upd
  if a = Reg.updstat then c.updstat
  else if a = Reg.socmean then c.reg a ||| pack [(31, b2n u.stale)]
  else if a = Reg.updptr then word u.got
  else if a = Reg.bootinf then pack [(0, u.slot), (2, b2n u.bTrial), (3, u.bTries)]
  else c.reg a

/-- A write to a UPD register. -/
def writeUpd (c : Chip) (a : Nat) (v : Word) : Chip :=
  if a = Reg.updcmd then (if fld v 16 16 = 0x5E7A then c.updCommand true (fld v 0 4) else c)
  else if a = Reg.upddata then c.writeUpddata v
  else if a = Reg.updguard then c.plainWrite a (if c.bit Reg.updguard 1 then v ||| 2 else v)
  else if a = Reg.socmean then { c.plainWrite a v with upd.stale := false, upd.socAt := c.now }
  else if a = Reg.updlock then (if v.getLsbD 0 then c.setReg a 1 else c)
  else c.plainWrite a v

end Sys2Proof.Machine
end

