-- ==== Sys2Proof/Machine/Power.lean ====
section
/-! DEFINITION. Supplies, resets, boot, ship mode, the watchdog and the SYS registers (R81 to R111, R553, R568; log 40). -/

namespace Sys2Proof.Machine

/-! Leaving reset. -/

/-- A domain is powered and leaves reset with what its chapter starts there (R66, R110, R341, R429, R495). -/
def Chip.domainStart (c : Chip) (d : Domain) : Chip :=
  let c := { c with pwr.powered := c.pwr.powered.set d true, pwr.held := c.pwr.held.set d false }
  match d with
  | .sup => { c.startStrand 0 with issue := { holder := some 0, since := c.now } }.modStrand 0 fun s => { s with pc := 0x10000000 }
  | .afe => { c.gateInit.adcInit with gate.since := c.tg.tick }
  | .ifc => c.twbInit
  | _ => c

/-- The domains that the power and lock stage brings up, TGRID first (Table 3.4). -/
def bootDomains : List Domain := [.tgrid, .sup, .nvm, .seq, .afe, .ifc]

/-- The part has booted as far as SUP leaving reset, and no power-fail holds it. -/
def Chip.booted (c : Chip) : Bool :=
  !c.pwr.pfail && (c.pwr.boot matches .bootRom | .loader | .app | .done | .recovery | .warmRestart)

/-- The bit of PWRCTL that requests a domain (Table 3.6). -/
def requestBit : Domain → Option Nat
  | .hub => some 0 | .tile0 => some 1 | .tile1 => some 2 | _ => none

/-- DOMAIN_POWERED (R110). -/
def Chip.domainPowered (c : Chip) (d : Domain) : Chip :=
  if !c.booted || c.up d then c
  else match requestBit d with
    | some i => if c.pwr.request.getLsbD i then c.domainStart d else c
    | none => if (d matches .afe | .nvm | .ifc) && c.pwr.powered.get d then c.domainStart d else c

/-! Supplies (R82 to R85). -/

/-- VIN as VMON reports it. -/
def Chip.vin (c : Chip) (mv : Nat) : Chip := { c with pwr.vinMv := mv }

/-- AON_POWER_ON (R82, R90, R93). -/
def Chip.aonPowerOn (c : Chip) (mv : Nat) : Chip :=
  let c := c.vin mv
  if c.pwr.powered.aon then c
  else { c with pwr := { vinMv := mv, vioGood := c.pwr.vioGood, resetLow := c.pwr.resetLow, powered := { aon := true },
                         boot := .fuseLoad, bootAt := c.now, rstCause := 1 } }

/-- What stays when AON has no power: the non-volatile memories, the fuse array, the supplies and the pins. -/
def Chip.aonPowerOff (c : Chip) (mv : Nat) : Chip :=
  let c := domains.foldl Chip.unpower c
  { c with pwr := { vinMv := mv, vioGood := c.pwr.vioGood, resetLow := c.pwr.resetLow }, regs := [], shadows := [],
           fuses := { array := c.fuses.array }, ev := {}, raised := [], shelfReq := none, snapReq := none }

/-- BROWN_OUT (R82, R88). -/
def Chip.brownOut (c : Chip) (mv : Nat) : Chip :=
  let c := c.vin mv
  if !c.pwr.powered.aon then c else
  let c := domains.foldl Chip.unpower c
  let c := { c with pwr := { c.pwr.bootClear with
    request := 0, vinGood := false, vinLow := true, pfail := false, pfFlush := false, wdtRun := false, shipping := false,
    boot := if c.pwr.boot == BootPhase.fuseLoad then .fuseLoad else .waitVin } }
  (c.resetCause 1).shelfEnter .off

/-- VIN_LOW (R84). -/
def Chip.vinFell (c : Chip) (mv : Nat) : Chip :=
  let c := c.vin mv
  if !c.pwr.powered.aon then c
  else
    let boot := if c.pwr.boot == .powerLock then BootPhase.waitVin else c.pwr.boot
    { c with pwr.vinLow := true, pwr.vinGood := false, pwr.boot := boot, tg.stopped := true }.shelfDrop

/-- VIN_LOW_RECOVERY (R84). -/
def Chip.vinLowRecovery (c : Chip) (mv : Nat) : Chip :=
  let c := c.vin mv
  if !c.pwr.vinLow || c.pwr.pfail || !c.booted then c
  else { c with pwr.vinLow := false, pwr.vinGood := true }.systemReset 2

/-- Every domain but AON is held in reset at the end of the power-fail flush; if VIN has risen meanwhile, the part boots
(R85). -/
def Chip.powerFailEnd (c : Chip) : Chip :=
  let c := { domains.foldl Chip.holdReset c with pwr.pfFlush := false, pwr.wdtRun := false }
  if c.pwr.vinGood then { c with pwr.vinLow := false }.systemReset 3 else c

/-- POWER_FAIL (R85). -/
def Chip.powerFail (c : Chip) (mv : Nat) : Chip :=
  let c := c.vin mv
  if !c.booted || c.pwr.pfail then c
  else
    let c := (c.vinFell mv).raise 2
    let c := [Domain.hub, .tile0, .tile1, .afe, .ifc, .seq].foldl Chip.holdReset c
    let c := { c with pwr.pfail := true, pwr.pfFlush := true }
    if c.up .nvm && c.recd.ready then c.recPowerFail else c.powerFailEnd

/-- POWER_FAIL_RECOVERY: it does not shorten the flush (R85). -/
def Chip.powerFailRecovery (c : Chip) (mv : Nat) : Chip :=
  let c := c.vin mv
  if !c.pwr.pfail then c
  else
    let c := { c with pwr.vinGood := true }
    if c.pwr.pfFlush then c else { c with pwr.vinLow := false }.systemReset 3

/-- VIN_WARNING (Table 3.2). -/
def Chip.vinWarning (c : Chip) (low : Bool) (mv : Nat) : Chip :=
  let c := c.vin mv
  if !c.pwr.powered.aon then c else { c with pwr.warn := low }.raiseIf low 1

/-- VIN_LOW_RISING (Table 3.2). -/
def Chip.vinLowRising (c : Chip) (mv : Nat) : Chip :=
  let c := c.vin mv
  if !c.pwr.powered.aon || c.booted || c.pwr.pfail then c
  else { c with pwr.vinGood := true, pwr.vinLow := false }.bootGo

/-- RESET_PIN (R88, R105); from a power-fail on every domain it would reset is held already, and the flush goes on (R85,
log 40). -/
def Chip.resetPin (c : Chip) : Chip :=
  let c := { c with pwr.resetLow := true }
  if !c.pwr.powered.aon || c.pwr.cur == .ship then c
  else if c.pwr.pfail then (c.resetCause 4).raise 5
  else if c.pwr.boot == .fuseLoad then c.resetCause 4
  else (c.systemReset 4).raise 5

/-- RESET_RELEASE (R88). -/
def Chip.resetRelease (c : Chip) : Chip := { c with pwr.resetLow := false }.bootGo

/-! Boot (R93 to R97, R553). -/

/-- FUSE_LOAD_DONE (R93, R561). -/
def Chip.fuseLoadDone (c : Chip) (differ : Bool) : Chip :=
  if c.pwr.boot ≠ .fuseLoad then c
  else
    let c := { c with fuses.shadow := c.fuses.array, pwr.fuseDiff := differ, pwr.boot := .waitVin }
    { c with pwr.debugOff := (c.fuseWord 7).getLsbD 4 }.bootGo

/-- The boot ROM or the loader enters RECOVERY: the shelf follows at once from STANDBY or FAULT-LATCHED (R95, R98,
R556). -/
def Chip.enterRecovery (c : Chip) (cause : Nat) : Chip :=
  let c := { c with pwr := { c.pwr with boot := .recovery, stage := 0xF, rcvCause := cause, bootSlot := 3, rcvReq := false } }
  if c.pwr.cur matches .standby | .faultLatched then c.shelfEnter .recovery c.pwr.fltEvt else c

/-- POWER_AND_LOCK_DONE: SUP leaves reset; a fuse-read difference and a requested recovery lead to RECOVERY in this tick
(R93 to R95, R98, R429, R460). -/
def Chip.powerAndLockDone (c : Chip) (pllLocked : Bool) : Chip :=
  if c.pwr.boot ≠ .powerLock then c
  else
    let c := bootDomains.foldl Chip.domainStart c
    let c := { c.blank 0x20000000 0x20040000 with
      tg.locked := pllLocked, tg.fallback := !pllLocked, est.back := List.replicate 128 {} }
    let c := { c with pwr := { c.pwr.bootClear with boot := .bootRom, bootAt := c.now, wdtTicks := 0, wdtRun := true } }
    let c := c.shelfEnter (if c.pwr.fuseDiff || c.pwr.rcvReq then .recovery
      else if c.pwr.latch then .faultLatched else .standby) c.pwr.fltEvt
    if c.pwr.fuseDiff then c.enterRecovery 1
    else if c.pwr.rcvReq then c.enterRecovery 5 else c

/-- The header at a region's base is well formed for a kind (R543). -/
def Chip.headerOk (c : Chip) (base size kind : Nat) : Bool :=
  let h := c.flashBytes base 64
  let len := field h 0x10 4
  let entry := field h 0x18 4
  h.take 4 == [0x5A, 0x4F, 0x41, 0x4E] && field h 0x3C 4 == (check (h.take 0x3C)).toNat && field h 4 2 == 1 &&
    field h 6 2 == 0x1280 && field h 0x0E 1 == kind && field h 0x14 4 == base + 0x80 && len + 0x80 ≤ size &&
    base + 0x80 ≤ entry && entry < base + 0x80 + len

/-- The image at a region passes its checks; a warm restart looks at the header only (R93, R96). -/
def Chip.imageOk (c : Chip) (base size kind : Nat) (warm : Bool) : Bool :=
  c.headerOk base size kind &&
    (warm || field (c.flashBytes base 64) 0x1C 4 ==
      (check (c.flashBytes (base + 0x80) (field (c.flashBytes base 64) 0x10 4))).toNat)

/-- BOOT_ROM_CHECK_DONE (R93, R95). -/
def Chip.bootRomCheckDone (c : Chip) : Chip :=
  if c.pwr.boot ≠ .bootRom then c
  else if c.imageOk 0 0x10000 1 false then { c with pwr := { c.pwr with boot := .loader, bootAt := c.now, stage := 2 } }
  else c.enterRecovery 2

/-- A slot's region (Table 18.1). -/
def slotRegion : Nat → Nat × Nat
  | 1 => (0x10000, 0x70000)
  | 2 => (0x80000, 0x70000)
  | _ => (0x10000, 0xE0000)

/-- The slot the loader chooses from the boot-control log, with what it appends (R553). -/
def Chip.loaderChoice (c : Chip) : Nat × Chip :=
  if !c.planD then (0, c)
  else match c.bootNewest with
    | none => (1, c)
    | some e =>
      let slot := if e.slot = 2 then 2 else 1
      if !e.trial then (slot, { c with upd.bTries := e.tries })
      else if e.tries = 0 then
        (slot, { c.bootAppend slot true false 1 e.iver with upd.bTrial := true, upd.bTries := 1, upd.trial := true,
                                                            upd.trialAt := c.now })
      else (3 - slot, (c.bootAppend (3 - slot) false false 0 0).raise 122)

/-- The loader enters the application of a slot. -/
def Chip.enterApp (c : Chip) (slot : Nat) (warm : Bool) : Chip :=
  let entry := word (field (c.flashBytes (slotRegion slot).1 64) 0x18 4)
  let c := c.modStrand 0 fun s => { s with pc := entry }
  { c with upd.slot := slot,
           pwr := { c.pwr with boot := .app, bootAt := c.now, stage := 3, bootSlot := slot, warm := warm } }

/-- The loader chooses and checks the application (R93, R95, R96, R553). -/
def Chip.load (c : Chip) (warm : Bool) : Chip :=
  let incomplete := !c.planD && (match c.bootNewest with | some e => e.incompl | none => false)
  if incomplete then c.enterRecovery 4
  else
    let (slot, c) := c.loaderChoice
    let ok (s : Nat) : Bool := c.imageOk (slotRegion s).1 (slotRegion s).2 0 warm
    if ok slot then c.enterApp slot warm
    else if c.planD && ok (3 - slot) then c.enterApp (3 - slot) warm
    else c.enterRecovery 3

/-- LOADER_DONE. -/
def Chip.loaderDone (c : Chip) : Chip := if c.pwr.boot ≠ .loader then c else c.load false

/-- WARM_RESTART_DONE (R96). -/
def Chip.warmRestartDone (c : Chip) : Chip :=
  if c.pwr.boot ≠ .warmRestart || !c.booted then c
  else
    let c := c.domainStart .sup
    let c := { c with pwr.wdtTicks := 0, pwr.wdtRun := true }
    if c.imageOk 0 0x10000 1 true then c.load true else c.enterRecovery 2

/-- A write to BOOTDONE (R97); a wake is recorded after the boot (R104). -/
def Chip.writeBootdone (c : Chip) (v : Word) : Chip :=
  if v ≠ 0xB0D0 || c.pwr.boot ≠ .app then c
  else
    let woke := c.pwr.wakeEvent
    let c := { c with pwr := { c.pwr with boot := .done, stage := 4, wakeEvent := false } }
    (c.raise 0).raiseIf woke 7

/-! Software resets and power (R88, R92, R110). -/

/-- A write to SWRST. -/
def Chip.writeSwrst (c : Chip) (v : Word) : Chip := if v = 0xD1E5 then c.systemReset 5 else c

/-- An AFE reset is refused (R110). -/
def Chip.afeRefused (c : Chip) : Bool := !((c.gate.gst matches .open_ | .check) && c.confbOpen)

/-- An NVM reset is refused (R110). -/
def Chip.nvmRefused (c : Chip) : Bool :=
  c.recd.flBusy || (match c.memc.op with | some (.program ..) => true | _ => false)

/-- HUB is reset: a regulating shelf goes to HOLDOVER (Table 3.5). -/
def Chip.hubResetDrop (c : Chip) : Chip :=
  let c := c.holdReset .hub
  if c.pwr.cur == .regulating then c.shelfEnter .holdover else c

/-- NVM is reset: a snapshot in hand is abandoned (Table 15.11). -/
def Chip.nvmResetDrop (c : Chip) : Chip :=
  let c := if c.recd.snapBusy.isSome then c.setBit Reg.snapstat 10 else c
  c.holdReset .nvm

/-- A write to DRST (R110, R111). -/
def Chip.writeDrst (c : Chip) (v : Word) : Chip :=
  if fld v 16 16 ≠ 0xD1E5 then c else
  let named (i : Nat) (d : Domain) : Bool := v.getLsbD i && c.pwr.powered.get d
  let c := if named 0 .hub then c.hubResetDrop else c
  let c := if named 1 .tile0 then c.tileReset 0 else c
  let c := if named 2 .tile1 then c.tileReset 1 else c
  let c := if named 3 .afe then (if c.afeRefused then c.setBit Reg.pwrstat 9 else c.holdReset .afe) else c
  let c := if named 4 .nvm then (if c.nvmRefused then c.setBit Reg.pwrstat 10 else c.nvmResetDrop) else c
  let c := if named 5 .ifc then c.holdReset .ifc else c
  if v.getLsbD 6 then c.supRestart else c

/-- A write to PWRCTL (R51, R110). -/
def Chip.writePwrctl (c : Chip) (v : Word) : Chip :=
  let refused := c.pwr.request.getLsbD 0 && !v.getLsbD 0 && !c.allOff
  let req := (v &&& 7) ||| (if refused then 1 else 0)
  let c := if refused then c.setBit Reg.pwrstat 8 else c
  let c := { c with pwr.request := req, pwr.requestAt := c.now }
  [(0, Domain.hub), (1, .tile0), (2, .tile1)].foldl (fun c p =>
    if !req.getLsbD p.1 && c.pwr.powered.get p.2 then c.unpower p.2 else c) c

/-- WDTCTL.TIMEOUT in ticks (R92). -/
def Chip.wdtLimit (c : Chip) : Nat := c.rf Reg.wdtctl 0 11 * 100000

/-- WATCHDOG_EXPIRY (R92). -/
def Chip.watchdogExpiry (c : Chip) : Chip :=
  if c.pwr.wdtRun && c.up .sup then (c.elapse (c.wdtLimit - c.pwr.wdtTicks)).supRestart else c

/-! Faults and ship mode (R101 to R105). -/

/-- A write to FLTCLR (R101). -/
def Chip.writeFltclr (c : Chip) (v : Word) : Chip :=
  if v ≠ 0xC1EA || !c.pwr.latch || c.gate.cause ≠ 0 then c
  else
    let c := { c with pwr.latch := false, pwr.fltEvt := 0 }
    if c.pwr.cur == .faultLatched then c.shelfAsk .standby else c

/-- The reasons to refuse SHIP, as bits of SHIPSTAT (R102). -/
def Chip.shipRefusal (c : Chip) : List Nat :=
  [(1, c.pwr.cur != .standby), (2, (c.input 1).unstable || (c.input 1).level || c.inLevel 1),
   (3, c.up .afe && !(c.gate.gst matches .open_ | .check))].filterMap fun p => if p.2 then some p.1 else none

/-- A write to SHIPCTL: event 6, then the flush (R102, R103). -/
def Chip.writeShipctl (c : Chip) (v : Word) : Chip :=
  if v ≠ 0x5A1B then c else
  let bad := c.shipRefusal
  if bad.isEmpty then
    { c with pwr.shipping := true, recd.flReq := c.up .nvm || c.recd.flReq, recd.shipFail := false }.raise 6
  else bad.foldl (fun c i => c.setBit Reg.shipstat i) (c.setBit Reg.shipstat 0)

/-- The flush of an accepted ship entry has ended: SHIP, or refused where it failed (R102, R103). -/
def Chip.shipEnd (c : Chip) : Chip :=
  let c := { c with pwr.shipping := false }
  if c.recd.shipFail || c.pwr.cur != .standby then (c.setBit Reg.shipstat 0).setBit Reg.shipstat 4
  else
    let c := domains.foldl Chip.unpower (c.shelfEnter .ship)
    { c with pwr := { c.pwr.bootClear with request := 0, boot := .off, wdtRun := false, latch := false, fltEvt := 0 } }

/-- FLUSH_DONE: event 117, then what waited for the flush (R85, R103, R477). -/
def Chip.flushDone (c : Chip) : Chip :=
  if !(c.up .nvm && c.recd.flBusy && c.recd.flushing.isEmpty) then c
  else
    let c := c.flushEnd
    if c.pwr.pfFlush then c.powerFailEnd
    else if c.pwr.shipping && (c.recd.shipFail || (c.recd.buf.isEmpty && !c.recd.flReq)) then c.shipEnd
    else c

/-- WAKE (R104): the boot skips the fuse load. -/
def Chip.wake (c : Chip) : Chip :=
  if c.pwr.cur ≠ .ship || c.pwr.boot ≠ .off then c
  else ({ c with pwr.boot := .waitVin, pwr.bootAt := c.now, pwr.wakeEvent := true }.resetCause 8).bootGo

/-! SYS registers (R106 to R110). -/

/-- A read of a SYS register. -/
def readSys (c : Chip) (a : Nat) : Word :=
  let p := c.pwr
  if a = Reg.state then pack [(0, p.cur.code), (4, p.prev.code), (8, b2n p.latch), (16, p.fltEvt)]
  else if a = Reg.rstcause then p.rstCause
  else if a = Reg.bootstat then pack [(0, p.stage), (4, p.bootSlot), (6, b2n p.warm), (8, p.rcvCause)]
  else if a = Reg.pwrctl then p.request
  else if a = Reg.pwrstat then
    c.reg a ||| pack [(0, b2n (c.up .hub)), (1, b2n (c.up .tile0)), (2, b2n (c.up .tile1))]
  else if a = Reg.vmon then
    pack [(0, b2n p.warn), (1, b2n p.vinLow), (2, b2n p.pfail), (3, b2n p.vioGood), (16, Nat.min 0xFFFF p.vinMv)]
  else c.reg a

/-- A write to a SYS register. -/
def writeSys (c : Chip) (a : Nat) (v : Word) : Chip :=
  if a = Reg.rstcause then { c with pwr.rstCause := c.pwr.rstCause &&& ~~~v }
  else if a = Reg.bootdone then c.writeBootdone v
  else if a = Reg.swrst then c.writeSwrst v
  else if a = Reg.pwrctl then c.writePwrctl v
  else if a = Reg.drst then c.writeDrst v
  else if a = Reg.shipctl then c.writeShipctl v
  else if a = Reg.fltclr then c.writeFltclr v
  else if a = Reg.wdtctl then
    (if c.bit Reg.syslock 0 then c else c.setReg a (word (clampN 1 2000 (fld v 0 11))))
  else if a = Reg.wdtkick then (if v = 0xC3A5 then { c with pwr.wdtTicks := 0 } else c)
  else if a = Reg.syslock then (if v.getLsbD 0 then c.setReg a 1 else c)
  else c.plainWrite a v

end Sys2Proof.Machine
end

