-- ==== Sys2Proof/Machine/Spl.lean ====
section
/-! DEFINITION. The set-point link: frames, their tests and answers, the goal and notice queues, SPALERT#, and the SPL
registers (R207 to R221; log 36). -/

namespace Sys2Proof.Machine

/-! Frames (R209 to R211). -/

/-- Bytes 0 to 3 of a frame (Table 6.2). -/
def splBytes (f : SplFields) (op : Nat) : List Byte :=
  BitVec.ofNat 8 (op + 16 * f.loop.val + 64 * f.seq.toNat) :: natBytes 3 f.arg.toNat

/-- The check of a frame passes under a context word (Table 6.3). -/
def splPasses (f : SplFields) (op ctx : Nat) : Bool := checkCtx (word ctx) (splBytes f op) = f.chk

/-- The link answers: EN = 1 and IFC out of reset (R220). -/
def Chip.splOn (c : Chip) : Bool := c.up .ifc && c.bit Reg.splctl 0

/-- The response byte and status block go out; LASTRSP keeps the byte and E at the acceptance tick (Table 6.8). -/
def Chip.splAnswer (c : Chip) (b : Byte) (e : Nat) (block : List Byte := []) : Chip :=
  { c.setReg Reg.lastrsp (pack [(0, b.toNat), (8, e)]) with spl.reply := b :: block }

/-- A frame is consumed: E increments, and the frame, its answer and its block are kept (R211). -/
def Chip.splConsume (c : Chip) (w : Word) (b : Byte) (block : List Byte := []) : Chip :=
  let e := c.spl.e
  let c := { c with spl := { c.spl with e := (e + 1) % 2 ^ 24, lastFrame := some w, lastByte := b, lastBlock := block } }
  ((c.setReg Reg.lastfrm w).count Reg.splcnta 0 16 1).splAnswer b e block

/-- A GOAL's loop does not take goals from the link (Table 6.4 row 6). -/
def Chip.splModeBad (c : Chip) (n : Nat) : Bool := !c.up .hub || !c.loopEn n || !c.bit (Reg.lnCfg n) 3

/-- A GOAL is outside the limits of the bank selected now (R213). -/
def Chip.splOutside (c : Chip) (n arg : Nat) : Bool :=
  let p := (match c.policyTile with | some t => c.policyOf (c.bankAt t) n | none => (c.loopSt n).pol)
  c.fvset < arg || arg < c.vminEff p || c.vmaxEff p < arg

/-- A GOAL that passed its check (Table 6.4 rows 6 to 9). -/
def Chip.splGoal (c : Chip) (f : SplFields) (w : Word) : Chip :=
  let n := f.loop.val
  if c.splModeBad n then
    let c := if c.up .hub then c.setBit (Reg.lnStat n) 17 else c
    (c.raise 46).splConsume w 0x96
  else if c.splOutside n f.arg.toNat then ((c.raise 105).setBit Reg.splstat 6).splConsume w 0x87
  else if 8 ≤ c.spl.goals.length then (c.setBit Reg.splstat 2).splAnswer 0x78 c.spl.e
  else
    let g : Goal := { loop := n, arg := f.arg.toNat, lseq := c.spl.e, tick := c.tg.tick }
    { c with spl.goals := c.spl.goals ++ [g] }.splConsume w 0xE1

/-- A status block under its check (R218). -/
def Chip.splBlock (c : Chip) (body : List Byte) : List Byte :=
  body ++ wordBytes (checkCtx (word (2 ^ 31 + c.spl.e)) body)

/-- NOTRD: the oldest notice queued before this tick (R216 to R218). -/
def Chip.splNotrd (c : Chip) (w : Word) : Chip :=
  let lost := b2n c.spl.lost
  let (body, rest) := (match c.spl.notices with
    | x :: t =>
      if x.tick < c.tg.tick then
        (natBytes 3 x.body.lseq ++ natBytes 1 (x.body.loop + 4 * x.body.kind + 16 * lost) ++ natBytes 4 x.seq, t)
      else (natBytes 3 0 ++ natBytes 1 (16 * lost) ++ natBytes 4 0, x :: t)
    | [] => (natBytes 3 0 ++ natBytes 1 (16 * lost) ++ natBytes 4 0, []))
  let block := c.splBlock body
  let c := { c with spl := { c.spl with notices := rest, lost := false, pulseDue := !rest.isEmpty, repAt := c.tg.tick } }
  c.splConsume w 0xE1 block

/-- MEASRD: VMEAS and TGT of the latest deadline (R212, R218). -/
def Chip.splMeasrd (c : Chip) (f : SplFields) (w : Word) : Chip :=
  let l := c.loopSt f.loop.val
  c.splConsume w 0xE1 (c.splBlock (natBytes 4 (bitsI 32 l.vmeas) ++ natBytes 4 (bitsI 32 l.tgt)))

/-- A frame that passed its check with context E and is not a repeat (Table 6.4 rows 5 to 9). -/
def Chip.splFresh (c : Chip) (op : Nat) (f : SplFields) (w : Word) : Chip :=
  let bad := !(op ≤ 3) || ((op = 0 || op = 2) && f.loop ≠ 0) || (op ≠ 1 && f.arg ≠ 0)
  if bad then c.splConsume w 0xA5
  else match op with
    | 1 => c.splGoal f w
    | 2 => c.splNotrd w
    | 3 => c.splMeasrd f w
    | _ => c.splConsume w 0xE1

/-- CHECK (Table 6.4 row 2). -/
def Chip.splCheckBad (c : Chip) : Chip :=
  (((c.raise 103).setBit Reg.splstat 3).count Reg.splcnta 16 16 1).splAnswer 0xC3 c.spl.e

/-- GAP (Table 6.4 row 4). -/
def Chip.splGap (c : Chip) : Chip :=
  (((c.raise 104).setBit Reg.splstat 4).count Reg.splcntb 0 16 1).splAnswer 0xB4 c.spl.e

/-- A repeat of the last consumed frame (Table 6.4 row 3). -/
def Chip.splRepeat (c : Chip) : Chip :=
  c.splAnswer (if c.spl.lastByte = 0xE1 then 0xD2 else c.spl.lastByte) c.spl.e c.spl.lastBlock

/-- A frame other than SYNC is decided: SEQ names the candidate among E − 1 to E + 2 (R211). -/
def Chip.splDecide (c : Chip) (op : Nat) (f : SplFields) : Chip :=
  let e := c.spl.e
  let d := (f.seq.toNat + 1 + 4 - e % 4) % 4
  let w := word (bytesVal (splBytes f op))
  if !c.splOn then c
  else if !splPasses f op ((e + d + 2 ^ 24 - 1) % 2 ^ 24) then c.splCheckBad
  else if d = 1 then c.splFresh op f w
  else if d = 0 && c.spl.lastFrame = some w then c.splRepeat
  else c.splGap

/-- A SYNC frame is decided (R211 row 1). -/
def Chip.splSync (c : Chip) (f : SplFields) : Chip :=
  if !c.splOn then c
  else if !splPasses f 15 0xFFFFFFFF then c.splCheckBad
  else
    let e := c.spl.e
    ({ c with spl := { c.spl with e := f.arg.toNat, lastFrame := none } }.setBit Reg.splstat 7).splAnswer 0xE1 e

/-- TRANSACTION_ABANDONED (R207). -/
def Chip.splAbandon (c : Chip) : Chip :=
  if c.splOn then (c.setBit Reg.splstat 5).count Reg.splcntb 16 16 1 else c

/-! Notices and SPALERT# (R215 to R217). -/

/-- A pulse of 200 ticks, unless one runs or ALRTEN = 0 (R217). -/
def Chip.splPulse (c : Chip) : Chip :=
  if c.splOn && c.bit Reg.splctl 1 && c.spl.pulseEnd ≤ c.tg.tick then { c with spl.pulseEnd := c.tg.tick + 200 } else c

/-- SPALERT# is driven low. -/
def Chip.splAlertLow (c : Chip) : Bool := c.splOn && c.tg.tick < c.spl.pulseEnd

/-- A numbered event's notice enters the queue, or is discarded where 16 wait (R215, R217). -/
def Chip.splNotice (c : Chip) (b : NoticeBody) (seq : Nat) : Chip :=
  if !c.up .ifc then c
  else if 16 ≤ c.spl.notices.length then { c with spl.lost := true }.setBit Reg.splstat 1
  else
    let was := c.spl.notices.isEmpty
    let c := { c with spl.notices := c.spl.notices ++ [Notice.mk b seq c.tg.tick] }
    if was then { c with spl.repAt := c.tg.tick }.splPulse else c

/-- SPALERT_PULSE: the pulse owed after a NOTRD, else the repeat after ALRTRPT (R217). -/
def Chip.spalertPulse (c : Chip) : Chip :=
  let rpt := c.rf Reg.splctl 8 8
  if !c.up .ifc || c.spl.notices.isEmpty then c
  else if c.spl.pulseDue then { c with spl.pulseDue := false }.splPulse
  else if rpt = 0 then c
  else
    let c := c.elapseTick (c.spl.repAt + rpt * 100000)
    { c with spl.repAt := c.tg.tick }.splPulse

/-! SPL registers (R219 to R221). -/

/-- A read of an SPL register. -/
def readSpl (c : Chip) (a : Nat) : Word :=
  if a = Reg.lseq then word c.spl.e
  else if a = Reg.qstat then pack [(0, c.spl.notices.length), (8, c.spl.goals.length)]
  else c.reg a

/-- A write to SPLCTL (R220). -/
def Chip.writeSplctl (c : Chip) (v : Word) : Chip :=
  let c := c.plainWrite Reg.splctl v
  let c := if v.getLsbD 2 then { c with spl.notices := [], spl.pulseDue := false } else c
  if v.getLsbD 0 then c else { c with spl.pulseEnd := 0 }

/-- A write to an SPL register. -/
def writeSpl (c : Chip) (a : Nat) (v : Word) : Chip := if a = Reg.splctl then c.writeSplctl v else c.plainWrite a v

end Sys2Proof.Machine
end

