-- ==== Sys2Proof/Machine/Bus.lean ====
section
/-! DEFINITION. The bus: the address map, who may access what, register reads and writes with their side effects, and
the delivery of bus errors (R6, R8, R21, R22, R30, R31, R50, R55, R56, R262, R435, R449, R565). -/

namespace Sys2Proof.Machine

/-! What an access is granted (R6, R22, R50, R55). -/

/-- Whether a register block's row of Table 1.12 covers the address. -/
def inBlock (a : Nat) : Bool := 0x40000000 ≤ a && a < 0x40017000

/-- The block number of a register address: its offset from SYS in 4 KiB. -/
def blockNo (a : Nat) : Nat := (a - 0x40000000) / 4096

/-- User-level loads of the counters are granted while PMCTL.USRRD = 1 (R450). -/
def Chip.userGrant (c : Chip) (a : Nat) (load : Bool) : Bool :=
  load && c.bit Reg.pmctl 1 && ((List.range 8).any fun i => a = Reg.cntLo i || a = Reg.cntHi i)

/-- A tile sees its own loop RAM and the LOOP, ALLOC, EST and THERM blocks; other masters see every row (R22, R56). -/
def visible (m : Master) (a : Nat) : Bool :=
  match m with
  | .tile t => (loopRam t.val ≤ a && a < loopRam t.val + 0x4000) || (0x40004000 ≤ a && a < 0x40007000) ||
      (0x40008000 ≤ a && a < 0x40009000)
  | _ => true

/-- A register access is granted: an aligned word, a block's row, its domain up, and the level or tile may (R6, R22,
R50, R55). -/
def Chip.regGrant (c : Chip) (m : Master) (a n : Nat) (load : Bool) : Bool :=
  inBlock a && n == 4 && a % 4 == 0 && visible m a && c.up (blockDom a) && (!c.userLevel m || c.userGrant a load)

/-! Register reads. -/

/-- What a register read returns; a reserved offset reads 0 (R565). -/
def Chip.regRead (c : Chip) (m : Master) (a : Nat) : Word :=
  match blockNo a with
  | 0x00 => readSys c a
  | 0x01 => readTgrid c m a
  | 0x02 => readHub c a
  | 0x03 => readHub c a
  | 0x04 => if 0x40004E00 ≤ a then readTileCtl c a else readLoop c a
  | 0x05 => readAlloc c a
  | 0x06 => readEst c m a
  | 0x07 => readGate c m a
  | 0x08 => readTherm c a
  | 0x09 => readSeq c a
  | 0x0A => readStrand c m a
  | 0x0B => readPmon c m a
  | 0x0C => readMem c m a
  | 0x0D => readRec c a
  | 0x0E => readAdc c m a
  | 0x0F => readTwb0 c a
  | 0x10 => readTwb1 c a
  | 0x11 => readSpl c a
  | 0x12 => readCrc c a
  | 0x13 => readAge c a
  | 0x14 => readFuse c a
  | 0x15 => readUpd c a
  | _ => readGpio c a

/-- The high half that a read of a low half latches: its address and its value (R30, R259, R449, R499). -/
def Chip.highHalf (c : Chip) (a : Nat) : Option (Nat × Word) :=
  let hi (n : Nat) : Word := word (n / 2 ^ 32)
  if a = Reg.ticklo then some (Reg.tickhi, hi c.tg.tick)
  else if a = Reg.vtxlo then some (Reg.vtxhi, hi c.tg.vtx)
  else if a = Reg.ppslo then some (Reg.ppshi, hi c.tg.ppsLast)
  else if a = Reg.evqtlo then some (Reg.evqthi, match c.ev.queue.head? with | some e => hi e.stamp | none => 0)
  else if a = Reg.logtlo then some (Reg.logthi, match c.memc.log.head? with | some e => hi e.stamp | none => 0)
  else if a = Reg.triptlo then some (Reg.tripthi, hi c.gate.tripTick)
  else if a = Reg.eoutlo then some (Reg.eouthi, hi c.gate.eout)
  else if a = Reg.einlo then some (Reg.einhi, hi c.gate.ein)
  else if a = Reg.injlo then some (Reg.injhi, (c.adc.inj.read c.tg.tick).2)
  else if Reg.qlo 0 ≤ a && a < Reg.qlo 128 && a % 8 = 0 then some (a + 4, wordI ((c.eslotSt (qSlot a)).q / 2 ^ 32))
  else if Reg.chLo 0 ≤ a && a < Reg.chLo 24 && a % 8 = 0 then
    some (a + 4, ((c.adc.results.getD ((a - Reg.chLo 0) / 8) {}).read c.tg.tick).2)
  else
    ((List.range 8).find? fun i => a = Reg.cntLo i).map fun i => (Reg.cntHi i, hi (c.pmon.getD i 0))

/-- Reading a register with bits of code RC returns them to their reset value (R8). -/
def Chip.readClear (c : Chip) (a : Nat) : Chip :=
  match regRow a with
  | some r => if r.rc = 0 then c else c.setReg a (regReset a)
  | none => c

/-- What a register read does besides returning a value: latch a high half, clear, advance a view or the snapshot's
offset (R8, R30, R483, R490). -/
def Chip.readEffect (c : Chip) (m : Master) (a : Nat) : Chip :=
  let c := match c.highHalf a with
    | some (hi, v) => c.latch m hi v
    | none => c
  let c := c.readClear a
  if a = Reg.win0 7 then c.viewAdvance 0
  else if a = Reg.win1 7 then c.viewAdvance 1
  else if a = Reg.snapdata then c.snapAdvance
  else c

/-! Register writes. -/

/-- FECHIP and LnDTOT are written by the active tile only (R233, R262). -/
def Chip.tileOnly (a : Nat) : Bool := a = Reg.fechip || (List.range 4).any fun n => a = Reg.lnDtot n

/-- The effect of a granted register write; a write to a reserved offset is ignored (R565). -/
def Chip.regWrite (c : Chip) (a : Nat) (v : Word) : Chip :=
  match blockNo a with
  | 0x00 => writeSys c a v
  | 0x01 => writeTgrid c a v
  | 0x02 => writeHub c a v
  | 0x03 => writeHub c a v
  | 0x04 => if 0x40004E00 ≤ a then writeTileCtl c a v else writeLoop c a v
  | 0x05 => writeAlloc c a v
  | 0x06 => writeEst c a v
  | 0x07 => writeGate c a v
  | 0x08 => writeTherm c a v
  | 0x09 => writeSeq c a v
  | 0x0A => writeStrand c a v
  | 0x0B => writePmon c a v
  | 0x0C => writeMem c a v
  | 0x0D => writeRec c a v
  | 0x0E => writeAdc c a v
  | 0x0F => writeTwb0 c a v
  | 0x10 => writeTwb1 c a v
  | 0x11 => writeSpl c a v
  | 0x12 => writeCrc c a v
  | 0x13 => writeAge c a v
  | 0x14 => writeFuse c a v
  | 0x15 => writeUpd c a v
  | _ => writeGpio c a v

/-- A register write is granted, its writer included. -/
def Chip.writeGrant (c : Chip) (m : Master) (a n : Nat) : Bool :=
  c.regGrant m a n false && (!Chip.tileOnly a || c.isActiveTile m)

/-! The bus. -/

/-- A memory access is granted: a memory's row, aligned to its size, and visible to the master (R22, R55). -/
def memGrant (m : Master) (a n : Nat) : Bool := inMemory a && a % n == 0 && visible m a

/-- A tile's access to the mirror region of its own loop RAM reaches its shadow (R193): the offset in the region. -/
def shadowAt (m : Master) (a : Nat) : Option (Nat × Nat) :=
  match m with
  | .tile t =>
    let b := loopRam t.val + mirrorOff
    if b ≤ a && a < b + 0x400 then some (t.val, a - b) else none
  | _ => none

/-- A read of `n` bytes as master `m`; no value is a bus error, counted by PMON.SEL 8. -/
def Chip.busRead (c : Chip) (m : Master) (a n : Nat) : Option Nat × Chip :=
  if inBlock a then
    if c.regGrant m a n true then (some (c.regRead m a).toNat, c.readEffect m a) else (none, c.busErrors m a)
  else if memGrant m a n then
    match shadowAt m a with
    | some (t, o) => if (c.tile t).shadowBad then (none, c.parityError m a) else (some ((c.tile t).shGet o n), c)
    | none =>
      match c.memRead m a n with
      | (some v, c) => (some v, c)
      | (none, c) => (none, c.busErrors m a)
  else (none, c.busErrors m a)

/-- A write of `n` bytes as master `m`; false is a bus error. -/
def Chip.busWrite (c : Chip) (m : Master) (a v n : Nat) : Bool × Chip :=
  if inBlock a then
    if c.writeGrant m a n then (true, c.regWrite a (word v)) else (false, c.busErrors m a)
  else if memGrant m a n then
    match shadowAt m a with
    | some (t, o) => (true, c.modTile t fun T => T.shPut o v n)
    | none =>
      match c.memWrite m a v n with
      | (true, c) => (true, c)
      | (false, c) => (false, c.busErrors m a)
  else (false, c.busErrors m a)

/-! Delivery (R435, Table 14.1). -/

/-- A bus error is delivered to the strand or the tile whose access failed: a BUS exception of a READY strand, a
self-diagnosis failure of a running tile. Other masters find it in the answer. -/
def Chip.deliverError (c : Chip) (m : Master) (a n : Nat) : Chip :=
  match m with
  | .strand k =>
    if (c.strand k.val).run == .ready then c.takeException k.val 4 (c.strand k.val).pc (word a) else c
  | .tile t => c.selfDiagnosis t.val (if inLoopRam a && c.parityBad a n then 2 else 6)
  | _ => c

/-- A read that a command makes as a bus access: the value or the error is its answer. -/
def Chip.accessRead (c : Chip) (m : Master) (a n : Nat) : Chip :=
  match c.busRead m a n with
  | (some v, c) => { c with answer := .value (word v) }
  | (none, c) => { c.deliverError m a n with answer := .busError }

/-- A write that a command makes as a bus access. -/
def Chip.accessWrite (c : Chip) (m : Master) (a v n : Nat) : Chip :=
  match c.busWrite m a v n with
  | (true, c) => { c with answer := .done }
  | (false, c) => { c.deliverError m a n with answer := .busError }

/-- A command that is a write of a word to a register. -/
def Chip.command1 (c : Chip) (m : Master) (a : Nat) (v : Word) : Chip := c.accessWrite m a v.toNat 4

/-- A register write whose effect depends on more than the value written: granted as any other. -/
def Chip.accessBy (c : Chip) (m : Master) (a : Nat) (f : Chip → Chip) : Chip :=
  if c.writeGrant m a 4 then { f c with answer := .done }
  else { (c.busErrors m a).deliverError m a 4 with answer := .busError }

end Sys2Proof.Machine
end

