-- ==== Sys2Proof/Machine/Settle.lean ====
section
/-! DEFINITION. What every command ends with: the inputs that blocks follow, the numbering and routing of the events it
raised, and the fault snapshot it asked for (R34, R199, R215, R436 to R440, R485, R486, R523, R527, R529). -/

namespace Sys2Proof.Machine

/-! The order of raisings (R436, R440). -/

/-- `a` is numbered before `b`: by stamp, then event number, then source. -/
def Raise.before (a b : Raise) : Bool :=
  a.stamp < b.stamp || (a.stamp == b.stamp && (a.ev < b.ev || (a.ev == b.ev && a.src < b.src)))

/-- Insert behind every raising that is not after it. -/
def insertRaise (r : Raise) : List Raise → List Raise
  | [] => [r]
  | x :: t => if r.before x then r :: x :: t else x :: insertRaise r t

/-- Raisings in the order of their numbers. -/
def sortRaises (l : List Raise) : List Raise := l.foldl (fun s r => insertRaise r s) []

/-- Raisings that wait for SUP: each source keeps the first of each event number (R440). -/
def Events.hold (e : Events) (rs : List Raise) : Events :=
  { e with held := rs.foldl (fun h r => if h.any fun x => x.ev == r.ev && x.src == r.src then h else h ++ [r]) e.held }

/-! Routing (R437 to R439). -/

/-- An event enters the event queue, or is lost where it is full. -/
def Chip.enqueue (c : Chip) (e : Event) : Chip :=
  let c := { c with ev.pend := c.ev.pend ||| (1#128 <<< e.ev) }
  if 32 ≤ c.ev.queue.length then { c with ev.lost := satAdd 0xFFFF c.ev.lost 1 }.setBit Reg.strstat 17
  else { c with ev.queue := c.ev.queue ++ [e] }

/-- A numbered event goes to the destinations its route names (R438, R320 for 124 and 125). -/
def Chip.route (c : Chip) (e : Event) : Chip :=
  let r := c.reg (Reg.route e.ev)
  let alert := r.getLsbD 8
  let c := if r.getLsbD 3 then (c.enqueue e).wakeStrand (fld r 0 3) else c
  let c := if alert then c.alertEvent e.ev else c
  let c := if r.getLsbD 9 then c.ibrEvent e.ev else c
  if c.up .nvm && (r.getLsbD 10 || e.ev = 124 || e.ev = 125) then
    { c with recd := c.recd.event e.seq e.stamp e.ev e.src alert }
  else c

/-- A raising gets the next number, is counted by PMON.SEL 11 and is routed; one with a notice behind it queues the
notice (R215, R436, R446). -/
def Chip.number (c : Chip) (r : Raise) : Chip :=
  let n := (c.ev.seq + 1) % 2 ^ 32
  let c := { c with ev.seq := n }.pmonAdd { sel := 11, point := some r.ev }
  let c := c.route { seq := n, stamp := r.stamp, ev := r.ev, src := r.src % 2 ^ 16 }
  match r.notice with
  | some b => c.splNotice b n
  | none => c

/-- What a raising does at once, before it is numbered: the status words, and the end of a running injection (R199,
R523). -/
def Chip.atRaise (c : Chip) (r : Raise) : Chip :=
  let c := c.statusEvent r.ev r.src
  if c.loop.inj.run && c.loop.inj.stopReq.isNone && (r.ev = 39 || (48 ≤ r.ev && r.ev ≤ 58)) then
    { c with loop.inj.stopReq := some r.ev }
  else c

/-- The raisings that are numbered now, in order: those held before the command's own; none while SUP is down (R436,
R440). -/
def Chip.order (c : Chip) : List Raise := if c.up .sup then sortRaises c.ev.held ++ sortRaises c.raised else []

/-- What numbering itself raises (the overflow of a counter of events, R446) is numbered behind it; the first argument
bounds the rounds: a counter overflows at most once in a command. -/
def Chip.numberRest : Nat → Chip → Chip
  | 0, c => c
  | n + 1, c =>
    match sortRaises c.raised with
    | [] => c
    | rs => Chip.numberRest n (rs.foldl Chip.number (rs.foldl Chip.atRaise { c with raised := [] }))

/-- The events of a command are numbered and routed; while SUP is down they are held (R436, R440). -/
def Chip.settleEvents (c : Chip) : Chip :=
  let rs := c.raised
  let all := c.order
  let c := rs.foldl Chip.atRaise { c with raised := [] }
  if !c.up .sup then { c with ev := c.ev.hold rs }
  else (Chip.numberRest 9 (all.foldl Chip.number { c with ev.held := [] })).flushDue

/-! The fault snapshot (Table 15.5). -/

/-- The bytes of register words. -/
def Chip.regBytes (c : Chip) (as_ : List Nat) : List Byte := as_.flatMap fun a => wordBytes (c.regRead .recorder a)

/-- The bytes of register words of the HUB domain; they read 0 while it is down (R485). -/
def Chip.hubBytes (c : Chip) (as_ : List Nat) : List Byte :=
  if c.up .hub then c.regBytes as_ else List.replicate (4 * as_.length) 0

/-- SYS.STATE after the entry to FAULT-LATCHED (R100). -/
def Chip.stateAfter (c : Chip) (evt : Nat) : Word :=
  let p := c.pwr
  if p.cur == .faultLatched then c.regRead .recorder Reg.state
  else pack [(0, ShelfState.faultLatched.code), (4, p.cur.code), (8, 1), (16, if p.latch then p.fltEvt else evt)]

/-- The tile whose sections a snapshot shows: the active tile, or the one last active (R485). -/
def Chip.snapTile (c : Chip) : Nat := c.fo.act.val

/-- The first 4092 bytes of a snapshot for the latching event, numbered `seq` at `stamp`. -/
def Chip.snapBody (c : Chip) (evt seq stamp : Nat) : List Byte :=
  let loops := (List.range 4).flatMap fun n => c.hubBytes [Reg.lnVmeas n, Reg.lnTgt n, Reg.lnUout n, Reg.lnStat n]
  let chst := (List.range 8).map Reg.chstat
  let hub := c.up .hub
  let entry (k : Nat) : List Byte :=
    (c.hslot k).sent.take 6 ++ [BitVec.ofNat 8 (c.hslot k).st.code, 0]
  natBytes 4 (c.recd.snapSeq + 1) ++ natBytes 4 seq ++ natBytes 8 stamp ++ wordBytes (c.stateAfter evt) ++
    c.regBytes [Reg.tripcause] ++ natBytes 4 c.recd.optime ++ natBytes 4 c.recd.pcyc ++
    c.regBytes [Reg.vbus, Reg.vrack, Reg.vsw, Reg.ish, Reg.ishv, Reg.psh, Reg.i2tlvl, Reg.gstat] ++ loops ++
    c.hubBytes ([Reg.tilestat, Reg.hubstat, Reg.loopstat, Reg.allocstat] ++ chst) ++
    c.hubBytes [Reg.dietemp] ++ c.regBytes [Reg.railon, Reg.seqstat] ++ c.hubBytes [Reg.vcoreReg] ++
    natBytes 4 (if hub then c.hub.tpseq else 0xFFFFFFFF) ++ natBytes 4 (if hub then c.hub.cpseq else 0xFFFFFFFF) ++
    List.replicate 56 0 ++
    (if hub then c.byteList (loopRam c.snapTile) 2048 else List.replicate 2048 0) ++
    (if hub then allSlots.flatMap entry else List.replicate 1024 0) ++
    c.hubBytes (allSlots.map Reg.tst) ++ List.replicate 252 0

/-- The number and stamp that event `evt` gets now; the latest number where it gets none. -/
def Chip.numberOf (c : Chip) (evt : Nat) : Nat × Nat :=
  match c.order.zipIdx.find? fun p => p.1.ev == evt with
  | some (r, i) => ((c.ev.seq + 1 + i) % 2 ^ 32, r.stamp)
  | none => (c.ev.seq, c.tg.tick)

/-- A snapshot that a latching fault asked for is taken, with the fault's own number (R100, R485). -/
def Chip.settleSnapshot (c : Chip) (no : Nat × Nat) : Chip :=
  match c.snapReq with
  | none => c
  | some evt => { c.takeSnapshot (c.snapBody evt no.1 no.2) with snapReq := none }

/-! The registers that a command names by an operand. -/

/-- The lock registers' addresses (R9). -/
def lockAddr : LockReg → Nat
  | .tglock => Reg.tglock
  | .syslock => Reg.syslock
  | .glock => Reg.glock
  | .winlock => Reg.winlock
  | .updlock => Reg.updlock
  | .flock => Reg.flock

/-- The limit registers' addresses (R341). -/
def limitAddr : LimitReg → Nat
  | .ovlim => Reg.ovlim
  | .uvlim => Reg.uvlim
  | .oclim => Reg.oclim

/-- RSEQcCTL for 0, else the list entries of converter `k` (R505). -/
def rseqReg (k : Fin 2) (w : Fin 5) : Nat :=
  if w.val = 0 then Reg.rseqCtl k.val else if k.val = 0 then Reg.rseqE0 (w.val - 1) else Reg.rseqE1 (w.val - 1)

/-! The end of a command. -/

/-- What every command ends with. -/
def Chip.settle (c : Chip) : Chip :=
  let c := c.seqInputs
  let no := c.numberOf (c.snapReq.getD 0)
  let c := c.settleEvents.settleSnapshot no
  { c.twbFollow with raised := [] }

/-- The next state whose part is `c` settled, the queue as it was. -/
def State.after (s : State) (c : Chip) : State := { s with chip := c.settle }

/-- A command's effect on the part, and what every command ends with; the queue is not touched. -/
def State.run (s : State) (f : Chip → Chip) : Host.Outcome State Fault Refusal := .next (s.after (f s.chip))

end Sys2Proof.Machine
end

