-- ==== Sys2Proof/Machine/CmdAdc.lean ====
section
/-! DEFINITION. Meanings of the converters' commands (R495 to R508). -/

namespace Sys2Proof.Machine

/-- CONVERSION_COMPLETE: a converter ends its conversion with `code` (R500). -/
def execConversionComplete (c_ : Fin 2) (code : BitVec 16) (s : State) : Host.Outcome State Fault Refusal :=
  s.run fun c => c.conversionComplete c_ code

/-- REFERENCE_SETTLED: the reference has settled (R495). -/
def execReferenceSettled (s : State) : Host.Outcome State Fault Refusal := s.run fun c => c.referenceSettled

/-- REFERENCE_CHECK: a reference check ends (R496). -/
def execReferenceCheck (inRange : Bool) (s : State) : Host.Outcome State Fault Refusal :=
  s.run fun c => c.referenceCheck inRange

/-- ADCREF_WRITE: a write to ADCREF (R497). -/
def execAdcrefWrite (m : Master) (v : Word) (s : State) : Host.Outcome State Fault Refusal :=
  s.run fun c => c.command1 m Reg.adcref v

/-- INJREQ: a write to INJREQ (R504). -/
def execInjreq (m : Master) (v : Word) (s : State) : Host.Outcome State Fault Refusal :=
  s.run fun c => c.command1 m Reg.injreq v

/-- ADCCAL: a write to ADCCAL (R506). -/
def execAdccal (m : Master) (v : Word) (s : State) : Host.Outcome State Fault Refusal :=
  s.run fun c => c.command1 m Reg.adccal v

/-- CALIBRATION_STEP_DONE: a step of a calibration ends (R507). -/
def execCalibrationStepDone (c_ : Fin 2) (s : State) : Host.Outcome State Fault Refusal :=
  s.run fun c => c.calStepDone c_

/-- CALIBRATION_DONE: a calibration ends with its offset and gain (R508). -/
def execCalibrationDone (c_ : Fin 2) (offset gain : BitVec 16) (s : State) : Host.Outcome State Fault Refusal :=
  s.run fun c => c.calDone c_ offset gain

/-- REGULAR_PASS_START: a regular list's next pass is due (R505). -/
def execRegularPassStart (c_ : Fin 2) (s : State) : Host.Outcome State Fault Refusal := s.run fun c => c.passStart c_

/-- RSEQ_WRITE: a write to RSEQcCTL (`w` = 0) or to a list entry (R505). -/
def execRseqWrite (m : Master) (c_ : Fin 2) (w : Fin 5) (v : Word) (s : State) : Host.Outcome State Fault Refusal :=
  s.run fun c => c.command1 m (rseqReg c_ w) v

end Sys2Proof.Machine
end

