-- ==== Sys2Proof/Machine/CmdAlloc.lean ====
section
/-! DEFINITION. Meanings of the allocation, estimation and ageing commands (R233 to R285, R313 to R319). -/

namespace Sys2Proof.Machine

/-- CANARY_COMPLETE: the canary run ends `ticks` ticks after its deadline (R317). -/
def execCanaryComplete (ticks : Nat) (s : State) : Host.Outcome State Fault Refusal :=
  s.run fun c => c.canaryComplete ticks

/-- EVALUATION_WINDOW_END: the evaluation window ends (R313). -/
def execEvaluationWindowEnd (s : State) : Host.Outcome State Fault Refusal := s.run fun c => c.windowEnds

/-- VCORE_SETTLED: VCORE has settled (R318). -/
def execVcoreSettled (s : State) : Host.Outcome State Fault Refusal := s.run fun c => c.vcoreSettled

/-- INHIBIT_EXPIRY: the hold after a failure ends (R319). -/
def execInhibitExpiry (s : State) : Host.Outcome State Fault Refusal := s.run fun c => c.inhibitExpiry

/-- DSEED_WRITE: a write to DSEED (R245). -/
def execDseedWrite (m : Master) (v : Word) (s : State) : Host.Outcome State Fault Refusal :=
  s.run fun c => c.command1 m Reg.dseed v

/-- DTOT_WRITE: a write to LnDTOT, by the active tile only (R233). -/
def execDtotWrite (m : Master) (n : Fin 4) (v : Word) (s : State) : Host.Outcome State Fault Refusal :=
  s.run fun c => c.command1 m (Reg.lnDtot n) v

/-- ROTATION_DUE: ROTIV seconds have passed (R237). -/
def execRotationDue (s : State) : Host.Outcome State Fault Refusal := s.run fun c => c.rotationDue

/-- SHDLY_EXPIRY: a loop's shed delay ends (R235). -/
def execShdlyExpiry (n : Fin 4) (s : State) : Host.Outcome State Fault Refusal := s.run fun c => c.shdlyExpiry n

/-- Q_ADJUST_COMMIT: a write to QADJCMT (R258). -/
def execQAdjustCommit (m : Master) (v : Word) (s : State) : Host.Outcome State Fault Refusal :=
  s.run fun c => c.command1 m Reg.qadjcmt v

/-- EVRAISE: a write to EVRAISE (R285). -/
def execEvraise (m : Master) (v : Word) (s : State) : Host.Outcome State Fault Refusal :=
  s.run fun c => c.command1 m Reg.evraise v

/-- FECHIP_WRITE: a write to FECHIP, by the active tile only (R262). -/
def execFechipWrite (m : Master) (v : Word) (s : State) : Host.Outcome State Fault Refusal :=
  s.run fun c => c.command1 m Reg.fechip v

/-- BACK_END_CHIP_UPDATE: the back end works on its next chip (R264). -/
def execBackEndChipUpdate (s : State) : Host.Outcome State Fault Refusal := s.run fun c => c.backEnd

end Sys2Proof.Machine
end

