-- ==== Sys2Proof/Machine/CmdBus.lean ====
section
/-! DEFINITION. Meanings of the register commands: writes and reads as bus accesses, the CRC unit and the locks (R6 to R10, R16,
R17, R30). -/

namespace Sys2Proof.Machine

/-- REGISTER_WRITE: a write of `size` bytes by a master, at any address (R8). -/
def execRegisterWrite (m : Master) (addr : Nat) (size : Nat) (v : Word)
    (s : State) : Host.Outcome State Fault Refusal := s.run fun c => c.accessWrite m addr v.toNat size

/-- RC_READ: a read by a master; fields of code RC clear in the access (R10). -/
def execRcRead (m : Master) (addr : Nat) (s : State) : Host.Outcome State Fault Refusal :=
  s.run fun c => c.accessRead m addr 4

/-- TICKLO_READ: a read of a low half latches the high half in the master's shadow (R30). -/
def execLowHalfRead (m : Master) (addr : Nat) (s : State) : Host.Outcome State Fault Refusal :=
  s.run fun c => c.accessRead m addr 4

/-- CRC_INIT: a write to CRCCTL (R16). -/
def execCrcInit (m : Master) (v : Word) (s : State) : Host.Outcome State Fault Refusal :=
  s.run fun c => c.command1 m Reg.crcctl v

/-- CRC_DATA: a write to CRCDATA: four bytes, low byte first (R17). -/
def execCrcData (m : Master) (v : Word) (s : State) : Host.Outcome State Fault Refusal :=
  s.run fun c => c.command1 m Reg.crcdata v

/-- CRC_BYTE: a write to CRCBYTE: one byte (R16). -/
def execCrcByte (m : Master) (v : Word) (s : State) : Host.Outcome State Fault Refusal :=
  s.run fun c => c.command1 m Reg.crcbyte v

/-- CRC_STATE_LOAD: a write to CRCSTATE (R16). -/
def execCrcStateLoad (m : Master) (v : Word) (s : State) : Host.Outcome State Fault Refusal :=
  s.run fun c => c.command1 m Reg.crcstate v

/-- LOCK: a write to a lock register; a lock stays set until its domain's reset (R9). -/
def execLock (m : Master) (r : LockReg) (v : Word) (s : State) : Host.Outcome State Fault Refusal :=
  s.run fun c => c.command1 m (lockAddr r) v

end Sys2Proof.Machine
end

