-- ==== Sys2Proof/Machine/Period.lean ====
section
/-! DEFINITION. The instants of the control period in their order, and what a conditioned input's new level does (R37,
R41, R57, R98, R334, R444, R445, R566; log 7, 8). -/

namespace Sys2Proof.Machine

/-! The shelf state at a vertex (Table 3.5). -/

/-- An L0 slot's last record sent was RUN. -/
def Chip.anyRun (c : Chip) : Bool := allSlots.any fun k => c.slotType k ≠ 0 && c.slotLoop k = 0 && (c.hslot k).sentMode = 1

/-- Every L0 slot's last record sent was OFF or IDLE. -/
def Chip.allIdle (c : Chip) : Bool :=
  allSlots.all fun k => c.slotType k = 0 || c.slotLoop k ≠ 0 || (c.hslot k).sentMode = 0 || (c.hslot k).sentMode = 3

/-- The transitions that the period itself triggers; `done`: the period that ended had its commands from a tile. -/
def Chip.shelfPeriod (c : Chip) (done : Bool) : Chip :=
  if !c.periodRuns then c else
  match c.pwr.cur with
  | .connected => if c.loopEn 0 && c.anyRun then c.shelfAsk .regulating else c
  | .regulating =>
    if c.fo.holdoverSent then c.shelfAsk .holdover
    else if c.allIdle then c.shelfAsk .connected else c
  | .holdover => if done && !c.fo.holdoverSent then c.shelfAsk .regulating else c
  | _ => c

/-! The instants (Table 1.5). -/

/-- The vertex. -/
def Chip.vertexInstant (c : Chip) : Chip :=
  let done := c.fo.lastDone = some c.tg.perseq
  let c := c.gridVertex
  let c := (c.shelfPeriod done).shelfDue
  let c := if c.tg.stopped then c else c.hubVertex
  let c := c.ageVertex
  let c := if c.up .afe then { c with gate.ishv := c.gate.ish } else c
  c.adcVertex

/-- The uplink start. -/
def Chip.uplinkInstant (c : Chip) : Chip :=
  let c := { c.elapseTick (c.tg.vtx + 150) with tg.instant := .uplink }
  if c.tg.stopped then c else c.hubUplink

/-- The blocks and the tile at an uplink deadline: R172 and R308 start tiles at every one while the HUB domain is up,
whether the hub runs its chains or not (log 7). -/
def Chip.deadlineRun (c : Chip) : Chip :=
  let c := c.failoverDeadline
  let t := c.starter
  let c := (c.hubDeadline).thermDeadline
  let c := ((c.loopDeadline t.isSome).allocDeadline t.isSome).estDeadline
  let c := c.adcDeadline.mirrorFailure
  let c := match t with
    | some t => c.tileStart t
    | none => c
  c.canaryDeadline

/-- The uplink deadline. -/
def Chip.deadlineInstant (c : Chip) : Chip :=
  let c := { c.elapseTick (c.tg.vtx + c.tg.updl) with tg.instant := .deadline, memc.mirOpen := false }
  if !c.up .hub || c.tg.stopped then c.adcDeadline else c.deadlineRun

/-- The chord. -/
def Chip.chordInstant (c : Chip) : Chip :=
  let c := { c.elapseTick (c.tg.vtx + c.tg.chord) with tg.instant := .chord }
  if c.up .hub && !c.tg.stopped then c.chordStep else c

/-- The next instant of the period. -/
def Chip.nextInstant (c : Chip) : Chip :=
  match c.tg.instant with
  | .vertex => c.uplinkInstant
  | .uplink => c.deadlineInstant
  | .deadline => c.chordInstant
  | .chord => c.vertexInstant

/-- The grid goes on to the next instant of a kind: what lies before it happens first (log 8). -/
def Chip.advance (target : Instant) : Nat → Chip → Chip
  | 0, c => c
  | n + 1, c =>
    let c := c.nextInstant
    if c.tg.instant = target then c else c.advance target n

/-- The command for an instant; the grid stands still while TGRID is down. -/
def Chip.instantCommand (c : Chip) (target : Instant) : Chip := if c.up .tgrid then Chip.advance target 4 c else c

/-! Conditioned inputs (R443 to R445). -/

/-- What a change of an input's level or stability does: EXT_TRIP# going low, an edge of TSYNC, an edge of a GPIO. -/
def Chip.inputHook (c before : Chip) (i : Nat) : Chip :=
  let was := before.inLevel i
  let is := c.inLevel i
  let steady := !(before.input i).unstable && !(c.input i).unstable
  if i = 0 then (if was && !is then c.extLow else c)
  else if i = 2 then (if steady && !was && is then c.tsyncEdge else c)
  else if 4 ≤ i && i ≤ 11 then (if steady && was != is then c.gpioEdge (i - 4) is else c)
  else c

/-- A qualified level of an input, with its consequences. -/
def Chip.inputQualified (c : Chip) (i : Nat) (level : Bool) (edges : Nat) : Chip :=
  (c.qualify i level edges).inputHook c i

/-- A qualified rising edge of TSYNC; none while the input is unstable (R37, R444). -/
def Chip.tsyncRise (c : Chip) : Chip := if (c.input 2).unstable then c else c.tsyncEdge

end Sys2Proof.Machine
end

