-- ==== Sys2Proof/Machine/CmdGate.lean ====
section
/-! DEFINITION. Meanings of the pass switch's commands (R330 to R347). -/

namespace Sys2Proof.Machine

/-- CONNECT: a write to GCMD with CONNECT (R330). -/
def execConnect (m : Master) (v : Word) (s : State) : Host.Outcome State Fault Refusal :=
  s.run fun c => c.command1 m Reg.gcmd v

/-- DISCONNECT: a write to GCMD with DISCONNECT (R331). -/
def execDisconnect (m : Master) (v : Word) (s : State) : Host.Outcome State Fault Refusal :=
  s.run fun c => c.command1 m Reg.gcmd v

/-- LEAKT_ELAPSED: the leak test's time ends (R331). -/
def execLeaktElapsed (s : State) : Host.Outcome State Fault Refusal := s.run fun c => c.leaktElapsed

/-- PRETMO_ELAPSED: the pre-charge time limit ends (R331). -/
def execPretmoElapsed (s : State) : Host.Outcome State Fault Refusal := s.run fun c => c.pretmoElapsed

/-- PRET_ELAPSED: the pre-charge time ends (R334). -/
def execPretElapsed (s : State) : Host.Outcome State Fault Refusal := s.run fun c => c.pretElapsed

/-- RAMPT_ELAPSED: the ramp time ends (R331). -/
def execRamptElapsed (s : State) : Host.Outcome State Fault Refusal := s.run fun c => c.ramptElapsed

/-- RAMPTMO_ELAPSED: the ramp time limit ends (R334). -/
def execRamptmoElapsed (s : State) : Host.Outcome State Fault Refusal := s.run fun c => c.ramptmoElapsed

/-- CONFB_CHANGE: a contactor's feedback changes (R331). -/
def execConfbChange (i : Fin 2) (closed : Bool) (s : State) : Host.Outcome State Fault Refusal :=
  s.run fun c => c.confbChange i closed

/-- CONDLY_ELAPSED: the contactor delay ends (R332). -/
def execCondlyElapsed (s : State) : Host.Outcome State Fault Refusal := s.run fun c => c.condlyElapsed

/-- CONT_ELAPSED: a contactor disagrees for longer than its time (R334). -/
def execContElapsed (i : Fin 2) (s : State) : Host.Outcome State Fault Refusal := s.run fun c => c.contElapsed i

/-- COMPARATOR_QUALIFIED: a comparator's output is qualified (R342). -/
def execComparatorQualified (n : Fin 8) (outside : Bool) (s : State) : Host.Outcome State Fault Refusal :=
  s.run fun c => c.cmpQualified n outside

/-- EXT_TRIP: EXT_TRIP# is qualified low (R335). -/
def execExtTrip (s : State) : Host.Outcome State Fault Refusal := s.run fun c => c.inputQualified 0 false 1

/-- GATE_FLT: GATE_FLT# goes low or high (R334). -/
def execGateFlt (low : Bool) (s : State) : Host.Outcome State Fault Refusal := s.run fun c => c.gateFlt low

/-- SENSE_TIMEOUT: no sense result within 10 000 ticks (R334). -/
def execSenseTimeout (s : State) : Host.Outcome State Fault Refusal := s.run fun c => c.senseTimeout

/-- CAUSECLR: a write to CAUSECLR (R337). -/
def execCauseclr (m : Master) (v : Word) (s : State) : Host.Outcome State Fault Refusal :=
  s.run fun c => c.command1 m Reg.causeclr v

/-- CMP_CONFIG_WRITE: a write to CMPnCFG or CMPnTH (R343). -/
def execCmpConfigWrite (m : Master) (n : Fin 8) (w : CmpWord) (v : Word)
    (s : State) : Host.Outcome State Fault Refusal :=
  s.run fun c => c.command1 m (match w with | .cfg => Reg.cmpCfg n | .th => Reg.cmpTh n) v

/-- LIMIT_WRITE: a write to OVLIM, UVLIM or OCLIM (R341). -/
def execLimitWrite (m : Master) (r : LimitReg) (v : Word) (s : State) : Host.Outcome State Fault Refusal :=
  s.run fun c => c.command1 m (limitAddr r) v

/-- ELDCMT: a write to ELDCMT (R347). -/
def execEldcmt (m : Master) (v : Word) (s : State) : Host.Outcome State Fault Refusal :=
  s.run fun c => c.command1 m Reg.eldcmt v

end Sys2Proof.Machine
end

