-- ==== Sys2Proof/Machine/CmdHub.lean ====
section
/-! DEFINITION. Meanings of the chain commands: frames, lock, marks, ranging and HUB's registers (R112 to R164). -/

namespace Sys2Proof.Machine

/-- HUB_ENABLE: a write to HUBCTL (R161). -/
def execHubEnable (m : Master) (v : Word) (s : State) : Host.Outcome State Fault Refusal :=
  s.run fun c => c.command1 m Reg.hubctl v

/-- UPLINK_FRAME_ARRIVAL: an uplink frame ends at one end of a chain (R131). -/
def execUplinkFrameArrival (c_ : Fin 8) (e : ChainEnd) (bytes : List Byte)
    (s : State) : Host.Outcome State Fault Refusal := s.run fun c => c.uplinkArrives c_ e bytes

/-- DOWNLINK_END_B_ARRIVAL: the downlink frame arrives at end B of a chain (R154). -/
def execDownlinkEndBArrival (c_ : Fin 8) (bytes : List Byte) (s : State) : Host.Outcome State Fault Refusal :=
  s.run fun c => c.downlinkArrives c_ bytes

/-- RECEIVER_LOCK_CHANGE: a receiver locks or loses lock (R116). -/
def execReceiverLockChange (c_ : Fin 8) (e : ChainEnd) (locked : Bool) (s : State) : Host.Outcome State Fault Refusal :=
  s.run fun c => c.lockChange c_ e locked

/-- MARK_ARRIVAL: the ranging mark returns after `ui` unit intervals (R129). -/
def execMarkArrival (c_ : Fin 8) (ui : Nat) (s : State) : Host.Outcome State Fault Refusal :=
  s.run fun c => c.markArrives c_ ui

/-- RNGERR: no ranging mark returned within the limit (R129). -/
def execRngerr (c_ : Fin 8) (s : State) : Host.Outcome State Fault Refusal := s.run fun c => c.rngerr c_

/-- MAILBOX_GO: a write to MBOXCTL (R163). -/
def execMailboxGo (m : Master) (v : Word) (s : State) : Host.Outcome State Fault Refusal :=
  s.run fun c => c.command1 m Reg.mboxctl v

/-- SLOTCFG_WRITE: a write to SLOTCFGk (R153). -/
def execSlotcfgWrite (m : Master) (k : Fin 128) (v : Word) (s : State) : Host.Outcome State Fault Refusal :=
  s.run fun c => c.command1 m (Reg.slotcfg k) v

/-- CHCTL_WRITE: a write to CHcCTL (R164). -/
def execChctlWrite (m : Master) (c_ : Fin 8) (v : Word) (s : State) : Host.Outcome State Fault Refusal :=
  s.run fun c => c.command1 m (Reg.chctl c_) v

/-- UNFOLD: a write to CHcCTL with UNFOLD (R160). -/
def execUnfold (m : Master) (c_ : Fin 8) (v : Word) (s : State) : Host.Outcome State Fault Refusal :=
  s.run fun c => c.command1 m (Reg.chctl c_) v

/-- FORCED_FOLD: a write to CHcCTL with FOLD (R160). -/
def execForcedFold (m : Master) (c_ : Fin 8) (v : Word) (s : State) : Host.Outcome State Fault Refusal :=
  s.run fun c => c.command1 m (Reg.chctl c_) v

/-- HOLDREQ_WRITE: a write to HOLDCTL (R136). -/
def execHoldreqWrite (m : Master) (v : Word) (s : State) : Host.Outcome State Fault Refusal :=
  s.run fun c => c.command1 m Reg.holdctl v

end Sys2Proof.Machine
end

