-- ==== Sys2Proof/Machine/CmdLoop.lean ====
section
/-! DEFINITION. Meanings of the loop commands: configuration, coefficients, injection, capture, tiles and failover (R169 to
R201, R291 to R308). -/

namespace Sys2Proof.Machine

/-- LOOP_ENABLE: a write to LnCFG with EN = 1 (R169). -/
def execLoopEnable (m : Master) (n : Fin 4) (v : Word) (s : State) : Host.Outcome State Fault Refusal :=
  s.run fun c => c.command1 m (Reg.lnCfg n) v

/-- LOOP_DISABLE: a write to LnCFG with EN = 0 (R170). -/
def execLoopDisable (m : Master) (n : Fin 4) (v : Word) (s : State) : Host.Outcome State Fault Refusal :=
  s.run fun c => c.command1 m (Reg.lnCfg n) v

/-- LNCFG_WRITE: a write to LnCFG (R171). -/
def execLncfgWrite (m : Master) (n : Fin 4) (v : Word) (s : State) : Host.Outcome State Fault Refusal :=
  s.run fun c => c.command1 m (Reg.lnCfg n) v

/-- COEFFICIENT_COMMIT: a write to COEFCMT (R191). -/
def execCoefficientCommit (m : Master) (v : Word) (s : State) : Host.Outcome State Fault Refusal :=
  s.run fun c => c.command1 m Reg.coefcmt v

/-- INJECTION_START: a write to INJCTL with RUN = 1 (R199). -/
def execInjectionStart (m : Master) (v : Word) (s : State) : Host.Outcome State Fault Refusal :=
  s.run fun c => c.command1 m Reg.injctl v

/-- INJECTION_STOP: a write to INJCTL with RUN = 0 (R199). -/
def execInjectionStop (m : Master) (v : Word) (s : State) : Host.Outcome State Fault Refusal :=
  s.run fun c => c.command1 m Reg.injctl v

/-- CAPTURE_START: a write to CAPCTL (R201). -/
def execCaptureStart (m : Master) (v : Word) (s : State) : Host.Outcome State Fault Refusal :=
  s.run fun c => c.command1 m Reg.capctl v

/-- SWAP: a write to TILECTL with SWAP (R298). -/
def execSwap (m : Master) (v : Word) (s : State) : Host.Outcome State Fault Refusal :=
  s.run fun c => c.command1 m Reg.tilectl v

/-- RESUME: a write to TILECTL with RESUME (R308). -/
def execResume (m : Master) (v : Word) (s : State) : Host.Outcome State Fault Refusal :=
  s.run fun c => c.command1 m Reg.tilectl v

/-- ARM: a write to TtARM (R303). -/
def execArm (m : Master) (t : Fin 2) (v : Word) (s : State) : Host.Outcome State Fault Refusal :=
  s.run fun c => c.command1 m (Reg.tnArm t) v

/-- LOAD_CHECK_DONE: the check of a tile's loaded program ends (R303). -/
def execLoadCheckDone (t : Fin 2) (s : State) : Host.Outcome State Fault Refusal := s.run fun c => c.loadCheckDone t

/-- MIRROR_CHECK_DONE: the mirror check at a takeover ends (R295). -/
def execMirrorCheckDone (s : State) : Host.Outcome State Fault Refusal := s.run fun c => c.mirrorCheck

/-- TILE_SELF_DIAGNOSIS_FAILURE: a check of Table 9.1 fails on a running tile (R292). -/
def execTileSelfDiagnosisFailure (t : Fin 2) (cause : Fin 8) (s : State) : Host.Outcome State Fault Refusal :=
  s.run fun c => c.selfDiagnosis t cause

/-- TILE_WATCHDOG: no acknowledged start, or a step count over WCS: cause 5 (R291). -/
def execTileWatchdog (t : Fin 2) (s : State) : Host.Outcome State Fault Refusal := s.run fun c => c.selfDiagnosis t 5

end Sys2Proof.Machine
end

