-- ==== Sys2Proof/Machine/CmdMem.lean ====
section
/-! DEFINITION. Meanings of the memory commands (R463 to R472). -/

namespace Sys2Proof.Machine

/-- SCRUB_STEP: the scrubber reads its next word (R465). -/
def execScrubStep (s : State) : Host.Outcome State Fault Refusal := s.run fun c => c.scrubStep

/-- RETIRE: a write to RETIREi (R470). -/
def execRetire (m : Master) (i : Fin 8) (v : Word) (s : State) : Host.Outcome State Fault Refusal :=
  s.run fun c => c.command1 m (Reg.retireReg i) v

/-- FLUSH: a write to FLCMD with FLUSH (R464). -/
def execFlush (m : Master) (v : Word) (s : State) : Host.Outcome State Fault Refusal :=
  s.run fun c => c.command1 m Reg.flcmd v

/-- ERASE: a write to FLCMD with ERASE (R463). -/
def execErase (m : Master) (v : Word) (s : State) : Host.Outcome State Fault Refusal :=
  s.run fun c => c.command1 m Reg.flcmd v

/-- FLASH_OPERATION_DONE: the flash operation in progress completes (R463). -/
def execFlashOperationDone (s : State) : Host.Outcome State Fault Refusal := s.run fun c => c.finishFlash

/-- CHKCTL_WRITE: a write to CHKCTL (R472). -/
def execChkctlWrite (m : Master) (v : Word) (s : State) : Host.Outcome State Fault Refusal :=
  s.run fun c => c.command1 m Reg.chkctl v

/-- LOGPOP: a write to LOGPOP (R468). -/
def execLogpop (m : Master) (v : Word) (s : State) : Host.Outcome State Fault Refusal :=
  s.run fun c => c.command1 m Reg.logpop v

end Sys2Proof.Machine
end

