-- ==== Sys2Proof/Machine/CmdPeriod.lean ====
section
/-! DEFINITION. Meanings of the control period's commands: its instants, the PLL, TSYNC and the commit (R35 to R46). -/

namespace Sys2Proof.Machine

/-- VERTEX: the vertex of the next period (R41). -/
def execVertex (s : State) : Host.Outcome State Fault Refusal := s.run fun c => c.instantCommand .vertex

/-- UPLINK_START: the uplink start (R41). -/
def execUplinkStart (s : State) : Host.Outcome State Fault Refusal := s.run fun c => c.instantCommand .uplink

/-- UPLINK_DEADLINE: the uplink deadline (R41). -/
def execUplinkDeadline (s : State) : Host.Outcome State Fault Refusal := s.run fun c => c.instantCommand .deadline

/-- CHORD: the chord (R41). -/
def execChord (s : State) : Host.Outcome State Fault Refusal := s.run fun c => c.instantCommand .chord

/-- PLL_LOCK_LOSS: the PLL loses lock (R35). -/
def execPllLockLoss (s : State) : Host.Outcome State Fault Refusal := s.run fun c => c.pllLost

/-- PLL_LOCK_HELD: the PLL has held lock (R36). -/
def execPllLockHeld (s : State) : Host.Outcome State Fault Refusal := s.run fun c => c.pllHeld

/-- TSYNC_EDGE: a qualified rising edge of TSYNC (R37). -/
def execTsyncEdge (s : State) : Host.Outcome State Fault Refusal := s.run fun c => c.tsyncRise

/-- PPS_TIMEOUT: no edge within the window (R39). -/
def execPpsTimeout (s : State) : Host.Outcome State Fault Refusal := s.run fun c => c.ppsTimeout

/-- COMMIT: a write to COMMIT takes the written period (R46). -/
def execCommit (m : Master) (v : Word) (s : State) : Host.Outcome State Fault Refusal :=
  s.run fun c => c.command1 m Reg.percommit v

end Sys2Proof.Machine
end

