-- ==== Sys2Proof/Machine/Pmbus.lean ====
section
/-! DEFINITION. The PMBus commands of the host bus: acknowledgement, PEC, write protection, pages, readings, the posted
queue, the window and the manufacturer commands (R513 to R526, R545; log 37, 43). -/

namespace Sys2Proof.Machine

/-! One transfer (R513 to R516). -/

/-- Code and effect of one PMBus command: whether the page in force takes it, what a read answers and leaves, which data
a write takes, its write-protect class and its effect. `full`: the command byte of a write is not acknowledged. -/
structure PmCmd where
  code   : Nat
  block  : Bool := false
  pageOk : Chip → Bool := fun _ => true
  read   : Option (Chip → Option (List Byte × Chip)) := none
  lenOk  : Option (List Byte → Bool) := none
  level  : Nat := 0
  busy   : Chip → Option Chip := fun _ => none
  write  : Chip → List Byte → Chip := fun c _ => c

/-- The bytes of a write as PEC covers them: address, command, a block's count, data (R515). -/
def Chip.writeMessage (c : Chip) (p : PmCmd) (d : List Byte) : List Byte :=
  let count := if p.block then [BitVec.ofNat 8 d.length] else []
  BitVec.ofNat 8 (2 * c.twbAddr) :: BitVec.ofNat 8 p.code :: (count ++ d)

/-- A read's answer: data, a block's count in front, and the PEC that follows if clocked (R515). -/
def Chip.readAnswer (c : Chip) (p : PmCmd) (d : List Byte) : List Byte :=
  let body := (if p.block then [BitVec.ofNat 8 d.length] else []) ++ d
  let a := 2 * c.twbAddr
  body ++ [pecOf ([BitVec.ofNat 8 a, BitVec.ofNat 8 p.code, BitVec.ofNat 8 (a + 1)] ++ body)]

/-- The command byte is not acknowledged: STATUS_CML bit 7 (R519). -/
def Chip.unsupported (c : Chip) : Chip := { c.cml 7 with twb0.nacked := true, twb0.reply := [] }

/-- WRITE_PROTECT permits a write of this class: 0 CLEAR_FAULTS and clearing writes, 1 WRITE_PROTECT, 2 PAGE and
OPERATION, 3 VOUT_COMMAND, 4 every other (R522). -/
def Chip.writePermitted (c : Chip) (level : Nat) : Bool :=
  let w := c.twb0.wprot
  level ≤ 1 || w = 0 || (level = 2 && w ≠ 0x80) || (level = 3 && w = 0x20)

/-- A write with its PEC: discarded, refused, or performed (R515, R522, R525). -/
def Chip.pmWrite (c : Chip) (p : PmCmd) (d : List Byte) (pec : Option Byte) : Chip :=
  match pec with
  | some b =>
    if b ≠ pecOf (c.writeMessage p d) then
      { ((((c.cml 5).setBit Reg.twbstat 6).raise 99).count Reg.twbcnt 0 8 1) with twb0.nacked := true }
    else if !c.writePermitted p.level || !(p.lenOk.getD (fun _ => false)) d then c.cml 6
    else p.write c d
  | none =>
    if c.bit Reg.twbctl 1 then c.cml 1
    else if !c.writePermitted p.level || !(p.lenOk.getD (fun _ => false)) d then c.cml 6
    else p.write c d

/-- One transfer of a command to TWB0. -/
def Chip.pmbus (c : Chip) (p : PmCmd) (x : Xfer) : Chip :=
  if !c.up .ifc || !c.bit Reg.twbctl 0 then c
  else if c.twb0.asleep then c.wakeNack
  else
    let c := { c.busActive with twb0.nacked := false, twb0.reply := [] }
    if !p.pageOk c then c.unsupported else
    match x with
    | .read =>
      match p.read with
      | none => c.unsupported
      | some f =>
        match f c with
        | none => c.unsupported
        | some (d, c2) => { c2 with twb0.reply := c.readAnswer p d }
    | .write d pec =>
      if p.lenOk.isNone then c.unsupported else
      match p.busy c with
      | some c => { c with twb0.nacked := true }
      | none => c.pmWrite p d pec

/-! Number formats (R520). -/

/-- round(n/d), ties away from zero. -/
def roundDiv (n d : Int) : Int := divHalfAway n d

/-- LINEAR16 of a voltage n/d in V; what a negative voltage reads is open (log 4). -/
def Chip.linear16 (c : Chip) (n d : Int) : Nat :=
  let m := roundDiv (16 * n) d
  if m < 0 then c.free.toNat % 65536 else Nat.min 0xFFFF m.toNat

/-- The mantissa for exponent `e`. -/
def mantissa (n d e : Int) : Int := if 0 ≤ e then roundDiv n (d * 2 ^ e.toNat) else roundDiv (n * 2 ^ (-e).toNat) d

/-- LINEAR11 of n/d: the most negative exponent whose mantissa fits. -/
def linear11 (n d : Int) : Nat :=
  let ok (e : Int) : Bool := -1024 ≤ mantissa n d e && mantissa n d e ≤ 1023
  let e := (((List.range 32).map fun (i : Nat) => (i : Int) - 16).find? ok).getD 15
  bitsI 5 e * 2048 + bitsI 11 (mantissa n d e)

/-! Pages (R518). -/

/-- The kinds of page. -/
inductive PageKind where
  | slot (k : Nat)
  | loop (n : Nat)
  | rail (r : Nat)
  | all

/-- What a page number addresses (Table 17.1). -/
def pageKind (p : Nat) : Option PageKind :=
  if p < 0x80 then some (.slot p)
  else if p < 0x84 then some (.loop (p - 0x80))
  else if 0x90 ≤ p && p < 0xA0 then some (.rail (p - 0x90))
  else if p = 0xFF then some .all
  else none

/-- The page in force is one page of the three kinds. -/
def Chip.onePage (c : Chip) : Bool := (pageIndex c.twb0.page).isSome

/-- PSTAT of the page in force. -/
def Chip.pageStat (c : Chip) : Word := match pageIndex c.twb0.page with | some i => c.pstat i | none => 0

/-- A byte to read. -/
def rdByte (f : Chip → Nat) : Option (Chip → Option (List Byte × Chip)) := some fun c => some (natBytes 1 (f c), c)

/-- A word to read, from a source that may be unavailable. -/
def rdWord (f : Chip → Option Nat) : Option (Chip → Option (List Byte × Chip)) :=
  some fun c => (f c).map fun v => (natBytes 2 v, c.useFree)

/-! Readings (R519). -/

/-- A slot's telemetry is available: ADMITTED, with HUB up. -/
def Chip.slotSource (c : Chip) (k : Nat) : Bool := c.up .hub && c.admitted k

/-- READ_VOUT. -/
def Chip.readVoutOf (c : Chip) : Option Nat :=
  match pageKind c.twb0.page with
  | some (.loop n) => if c.up .hub then some (c.linear16 (c.loopSt n).vmeas 1000) else none
  | some (.slot k) => if c.slotSource k then some (c.linear16 (c.hslot k).vstg 10000) else none
  | some (.rail r) =>
    let ch := c.dchch r
    if ch < 24 && c.up .afe && c.up .seq then some (c.linear16 (c.adc.results.getD ch {}).lo.toInt 1000) else none
  | _ => none

/-- READ_IOUT. -/
def Chip.readIoutOf (c : Chip) : Option Nat :=
  match pageKind c.twb0.page with
  | some (.loop _) => if c.twb0.page = 0x80 && c.up .afe then some (linear11 c.gate.ish 1000) else none
  | some (.slot k) => if c.slotSource k then some (linear11 (c.hslot k).istg 1000) else none
  | _ => none

/-- READ_TEMPERATURE_1. -/
def Chip.readTempOf (c : Chip) : Option Nat :=
  match pageKind c.twb0.page with
  | some (.loop _) => if c.twb0.page = 0x80 && c.up .hub then some (linear11 c.therm.die 64) else none
  | some (.slot k) => if c.slotSource k then some (linear11 (c.tslotSt k).tst 64) else none
  | _ => none

/-- A GATE reading of page 0x80. -/
def Chip.gateReading (c : Chip) (f : Gate → Int) (d : Int) : Option Nat :=
  if c.twb0.page = 0x80 && c.up .afe then some (linear11 (f c.gate) d) else none

/-- VOUT_COMMAND's read: LnGOAL. -/
def Chip.readGoalOf (c : Chip) : Option Nat :=
  match pageKind c.twb0.page with
  | some (.loop n) => if c.up .hub then some (c.linear16 (c.loopSt n).goal 1000) else none
  | _ => none

/-! The posted queue and the status commands (R521 to R524). -/

/-- A write is posted. -/
def Chip.post (c : Chip) (code : Nat) (d : List Byte) (byte : Bool) : Chip :=
  { c with twb0.hcq := c.twb0.hcq ++ [{ page := c.twb0.page, cmd := code, data := bytesVal d, byte := byte }] }

/-- The queue is full: the command byte is not acknowledged. -/
def Chip.postFull (c : Chip) : Option Chip :=
  if 8 ≤ c.twb0.hcq.length then some ((c.cml 1).setBit Reg.twbstat 8) else none

/-- CLEAR_FAULTS (R523). -/
def Chip.clearFaults (c : Chip) : Chip :=
  let c := { c with twb0.cml := 0 }
  match pageIndex c.twb0.page with
  | some i => c.clearPage i
  | none =>
    let c := (List.range 148).foldl Chip.clearPage c
    (List.range 4).foldl (fun c i => c.setReg (Reg.alrtpend i) 0) c

/-- A write of PAGE (R518). -/
def Chip.writePage (c : Chip) (p : Nat) : Chip :=
  if (pageKind p).isSome then { c with twb0.page := p } else c.cml 6

/-- A write of WRITE_PROTECT (R522). -/
def Chip.writeWprot (c : Chip) (v : Nat) : Chip :=
  if v = 0 || v = 0x20 || v = 0x40 || v = 0x80 then { c with twb0.wprot := v } else c.cml 6

/-! The window (R526). -/

/-- An access fails in the window: STATUS_CML bit 4 and WINBERR. -/
def Chip.winFault (c : Chip) : Chip := (c.cml 4).setBit Reg.twbstat 10

/-- The address lies in the window's range. -/
def Chip.winRange (c : Chip) (a : Nat) : Bool := (c.reg Reg.winlo).toNat ≤ a && a ≤ (c.reg Reg.winhi).toNat

/-- The cursor goes on by a word. -/
def Chip.winNext (c : Chip) : Chip := { c with twb0.winCur := (c.twb0.winCur + 4) % 2 ^ 32 }

/-- Read `n` words at the cursor; from the first that fails on, all ones. -/
def Chip.winRead (c : Chip) : Nat → List Byte × Chip
  | 0 => ([], c)
  | n + 1 =>
    let a := c.twb0.winCur
    let r := if c.winRange a then c.busRead .window a 4 else (none, c.busErrors .window a)
    match r with
    | (some v, c) =>
      let (bs, c) := c.winNext.winRead n
      (natBytes 4 v ++ bs, c)
    | (none, c) => (List.replicate (4 * (n + 1)) 0xFF, c.winFault)

/-- Write words at the cursor, until one fails. -/
def Chip.winWrite (c : Chip) : Nat → List Byte → Chip
  | 0, _ => c
  | n + 1, d =>
    let a := c.twb0.winCur
    let r := if c.winRange a then c.busWrite .window a (bytesVal (d.take 4)) 4 else (false, c.busErrors .window a)
    match r with
    | (true, c) => c.winNext.winWrite n (d.drop 4)
    | (false, c) => c.winFault

/-- MFR_WIN_ADDR's write. -/
def Chip.winAddr (c : Chip) (d : List Byte) : Chip :=
  let n := bytesVal (d.drop 4)
  if n = 0 || 8 < n then c.cml 6 else { c with twb0.winCur := bytesVal (d.take 4), twb0.winCnt := n }

/-! Manufacturer commands (R525, R545). -/

/-- MFR_REC_READ. -/
def Chip.recRead (c : Chip) : Option (List Byte × Chip) :=
  if !(c.up .sup && c.up .nvm) then none else
  let k := c.rf (Reg.cursor 1) 0 13
  some (natBytes 1 (c.viewStat k).toNat ++ (c.viewBytes k).1.take 32, c.viewAdvance 1)

/-- MFR_UPD_CTRL's write. -/
def Chip.updCtrl (c : Chip) (d : List Byte) : Chip :=
  let code := bytesVal (d.take 1)
  if bytesVal (d.drop 1) ≠ 0 || !(code = 1 || code = 2 || code = 3 || code = 6) || !c.up .sup then c.cml 6
  else c.updCommand false code

/-- MFR_UPD_DATA's write. -/
def Chip.updBlock (c : Chip) (d : List Byte) : Chip :=
  if c.updDataBad false then c.updRefuse 15 else c.updTake d

/-- Four pending words as 16 bytes. -/
def Chip.pendBytes (c : Chip) (r : Nat → Nat) : List Byte := (List.range 4).flatMap fun i => wordBytes (c.reg (r i))

/-- Clear the pending bits that 16 bytes name. -/
def Chip.pendClear (c : Chip) (r : Nat → Nat) (d : List Byte) : Chip :=
  (List.range 4).foldl (fun c i =>
    c.setReg (r i) (c.reg (r i) &&& ~~~(word (bytesVal ((d.drop (4 * i)).take 4))))) c

/-! The command table (Tables 17.2 and 17.4). -/

/-- PAGE. -/
def pmPage : PmCmd :=
  { code := 0x00, read := rdByte (·.twb0.page), lenOk := some (·.length == 1), level := 2,
    write := fun c d => c.writePage (bytesVal d) }

/-- OPERATION. -/
def pmOperation : PmCmd :=
  { code := 0x01, lenOk := some (·.length == 1), level := 2, busy := Chip.postFull,
    read := some fun c => if c.onePage then some (natBytes 1 (if c.pageStat.getLsbD 6 then 0 else 0x80), c) else none,
    write := fun c d => c.post 0x01 d true }

/-- CLEAR_FAULTS. -/
def pmClearFaults : PmCmd := { code := 0x03, lenOk := some (·.isEmpty), level := 0, write := fun c _ => c.clearFaults }

/-- WRITE_PROTECT. -/
def pmWriteProtect : PmCmd :=
  { code := 0x10, read := rdByte (·.twb0.wprot), lenOk := some (·.length == 1), level := 1,
    write := fun c d => c.writeWprot (bytesVal d) }

/-- CAPABILITY. -/
def pmCapability : PmCmd := { code := 0x19, read := rdByte fun _ => 0xD0 }

/-- VOUT_MODE. -/
def pmVoutMode : PmCmd := { code := 0x20, pageOk := Chip.onePage, read := rdByte fun _ => 0x1C }

/-- The page in force is a loop. -/
def Chip.loopPage (c : Chip) : Bool := match pageKind c.twb0.page with | some (.loop _) => true | _ => false

/-- VOUT_COMMAND. -/
def pmVoutCommand : PmCmd :=
  { code := 0x21, pageOk := Chip.loopPage, read := rdWord Chip.readGoalOf, lenOk := some (·.length == 2), level := 3,
    busy := Chip.postFull, write := fun c d => c.post 0x21 d false }

/-- STATUS_BYTE. -/
def pmStatusByte : PmCmd := { code := 0x78, pageOk := Chip.onePage, read := rdByte fun c => c.pageStat.toNat }

/-- STATUS_WORD. -/
def pmStatusWord : PmCmd := { code := 0x79, pageOk := Chip.onePage, read := rdWord fun c => some c.pageStat.toNat }

/-- STATUS_CML. -/
def pmStatusCml : PmCmd := { code := 0x7E, read := rdByte (·.twb0.cml.toNat) }

/-- STATUS_MFR_SPECIFIC. -/
def pmStatusMfr : PmCmd := { code := 0x80, pageOk := Chip.onePage, read := rdByte fun c => fld c.pageStat 16 8 }

/-- READ_VIN: the rack voltage, mV. -/
def pmReadVin : PmCmd := { code := 0x88, read := rdWord fun c => c.gateReading (·.vrack) 1000 }

/-- READ_VOUT. -/
def pmReadVout : PmCmd := { code := 0x8B, pageOk := Chip.onePage, read := rdWord Chip.readVoutOf }

/-- READ_IOUT. -/
def pmReadIout : PmCmd := { code := 0x8C, read := rdWord Chip.readIoutOf }

/-- READ_TEMPERATURE_1. -/
def pmReadTemp : PmCmd := { code := 0x8D, read := rdWord Chip.readTempOf }

/-- READ_POUT: the rack power, 0.1 W. -/
def pmReadPout : PmCmd := { code := 0x96, read := rdWord fun c => c.gateReading (·.psh) 10 }

/-- PMBUS_REVISION. -/
def pmRevision : PmCmd := { code := 0x98, read := rdByte fun _ => 0x44 }

/-- A block that never changes. -/
def pmText (code : Nat) (bs : List Byte) : PmCmd := { code := code, block := true, read := some fun c => some (bs, c) }

/-- MFR_ID: "YUNGATUS". -/
def pmMfrId : PmCmd := pmText 0x99 [0x59, 0x55, 0x4E, 0x47, 0x41, 0x54, 0x55, 0x53]

/-- MFR_MODEL: "ZS1280". -/
def pmMfrModel : PmCmd := pmText 0x9A [0x5A, 0x53, 0x31, 0x32, 0x38, 0x30]

/-- MFR_REVISION: "B1". -/
def pmMfrRevision : PmCmd := pmText 0x9B [0x42, 0x31]

/-- MFR_WIN_ADDR. -/
def pmWinAddr : PmCmd :=
  { code := 0xD0, block := true, lenOk := some (·.length == 5), level := 4,
    read := some fun c => some (natBytes 4 c.twb0.winCur ++ natBytes 1 c.twb0.winCnt, c),
    write := Chip.winAddr }

/-- MFR_WIN_DATA. -/
def pmWinData : PmCmd :=
  { code := 0xD1, block := true, level := 4,
    lenOk := some fun d => 4 ≤ d.length && d.length ≤ 32 && d.length % 4 == 0,
    read := some fun c => some (c.winRead c.twb0.winCnt),
    write := fun c d => c.winWrite (d.length / 4) d }

/-- MFR_REC_CURSOR. -/
def pmRecCursor : PmCmd :=
  { code := 0xD2, lenOk := some (·.length == 2), level := 4,
    read := rdWord fun c => if c.up .sup then some (c.rf (Reg.cursor 1) 0 13) else none,
    write := fun c d => if c.up .sup then c.regWrite (Reg.cursor 1) (word (bytesVal d)) else c.cml 6 }

/-- MFR_REC_READ. -/
def pmRecRead : PmCmd := { code := 0xD3, block := true, read := some Chip.recRead }

/-- MFR_REC_FREEZE. -/
def pmRecFreeze : PmCmd :=
  { code := 0xD4, lenOk := some (·.length == 1), level := 4,
    read := some fun c => if c.up .sup then some (natBytes 1 (b2n c.recd.frozen), c) else none,
    write := fun c d => if c.up .sup then c.writeRecctl (word (2 * (bytesVal d % 2))) else c.cml 6 }

/-- MFR_UPD_CTRL. -/
def pmUpdCtrl : PmCmd :=
  { code := 0xD5, block := true, lenOk := some (·.length == 4), level := 4,
    read := some fun c => if c.up .sup then some (wordBytes c.updstat, c) else none,
    write := Chip.updCtrl }

/-- MFR_UPD_DATA: not acknowledged while UPDSTAT.BUSY is set. -/
def pmUpdData : PmCmd :=
  { code := 0xD6, block := true, level := 4, pageOk := fun c => c.up .sup,
    lenOk := some fun d => 8 ≤ d.length && d.length ≤ 32 && d.length % 8 == 0,
    busy := fun c => if c.updBusy then some c else none, write := Chip.updBlock }

/-- MFR_ALERT_EVENTS. -/
def pmAlertEvents : PmCmd :=
  { code := 0xD7, block := true, lenOk := some (·.length == 16), level := 0,
    read := some fun c => some (c.pendBytes Reg.alrtpend, c), write := fun c d => c.pendClear Reg.alrtpend d }

/-- MFR_REQ_EVENTS: RECNF stands for as long as its condition does. -/
def pmReqEvents : PmCmd :=
  { code := 0xD8, block := true, lenOk := some (·.length == 17), level := 0,
    read := some fun c => some (c.pendBytes Reg.ibrpend ++ natBytes 1 (b2n c.twb0.tlm + 2 * b2n c.twb0.recNf), c),
    write := fun c d =>
      let c := c.pendClear Reg.ibrpend d
      if bytesVal (d.drop 16) % 2 = 1 then { c with twb0.tlm := false } else c }

/-- MFR_EVSEQ. -/
def pmEvseq : PmCmd :=
  { code := 0xD9, block := true, read := some fun c => if c.up .sup then some (natBytes 4 c.ev.seq, c) else none }

/-- A code that TWB0 does not support (R519, R525). -/
def pmUnsupported (code : Nat) : PmCmd := { code := code, pageOk := fun _ => false }

end Sys2Proof.Machine
end

