-- ==== Sys2Proof/Machine/CmdPmbus.lean ====
section
/-! DEFINITION. Meanings of the PMBus commands to TWB0, each one transfer (R513 to R526, R545). -/

namespace Sys2Proof.Machine

/-- PAGE: one transfer of the command (R518). -/
def execPage (x : Xfer) (s : State) : Host.Outcome State Fault Refusal := s.run fun c => c.pmbus pmPage x

/-- OPERATION: one transfer of the command (R519). -/
def execOperation (x : Xfer) (s : State) : Host.Outcome State Fault Refusal := s.run fun c => c.pmbus pmOperation x

/-- CLEAR_FAULTS: one transfer of the command (R523). -/
def execClearFaults (x : Xfer) (s : State) : Host.Outcome State Fault Refusal :=
  s.run fun c => c.pmbus pmClearFaults x

/-- WRITE_PROTECT: one transfer of the command (R522). -/
def execWriteProtect (x : Xfer) (s : State) : Host.Outcome State Fault Refusal :=
  s.run fun c => c.pmbus pmWriteProtect x

/-- CAPABILITY: one transfer of the command (R519). -/
def execCapability (x : Xfer) (s : State) : Host.Outcome State Fault Refusal := s.run fun c => c.pmbus pmCapability x

/-- VOUT_MODE: one transfer of the command (R519). -/
def execVoutMode (x : Xfer) (s : State) : Host.Outcome State Fault Refusal := s.run fun c => c.pmbus pmVoutMode x

/-- VOUT_COMMAND: one transfer of the command (R519). -/
def execVoutCommand (x : Xfer) (s : State) : Host.Outcome State Fault Refusal :=
  s.run fun c => c.pmbus pmVoutCommand x

/-- STATUS_BYTE: one transfer of the command (R519). -/
def execStatusByte (x : Xfer) (s : State) : Host.Outcome State Fault Refusal := s.run fun c => c.pmbus pmStatusByte x

/-- STATUS_WORD: one transfer of the command (R523). -/
def execStatusWord (x : Xfer) (s : State) : Host.Outcome State Fault Refusal := s.run fun c => c.pmbus pmStatusWord x

/-- STATUS_CML: one transfer of the command (R524). -/
def execStatusCml (x : Xfer) (s : State) : Host.Outcome State Fault Refusal := s.run fun c => c.pmbus pmStatusCml x

/-- STATUS_MFR_SPECIFIC: one transfer of the command (R523). -/
def execStatusMfrSpecific (x : Xfer) (s : State) : Host.Outcome State Fault Refusal :=
  s.run fun c => c.pmbus pmStatusMfr x

/-- READ_VIN: one transfer of the command (R519). -/
def execReadVin (x : Xfer) (s : State) : Host.Outcome State Fault Refusal := s.run fun c => c.pmbus pmReadVin x

/-- READ_VOUT: one transfer of the command (R519). -/
def execReadVout (x : Xfer) (s : State) : Host.Outcome State Fault Refusal := s.run fun c => c.pmbus pmReadVout x

/-- READ_IOUT: one transfer of the command (R519). -/
def execReadIout (x : Xfer) (s : State) : Host.Outcome State Fault Refusal := s.run fun c => c.pmbus pmReadIout x

/-- READ_TEMPERATURE_1: one transfer of the command (R519). -/
def execReadTemperature1 (x : Xfer) (s : State) : Host.Outcome State Fault Refusal :=
  s.run fun c => c.pmbus pmReadTemp x

/-- READ_POUT: one transfer of the command (R519). -/
def execReadPout (x : Xfer) (s : State) : Host.Outcome State Fault Refusal := s.run fun c => c.pmbus pmReadPout x

/-- PMBUS_REVISION: one transfer of the command (R519). -/
def execPmbusRevision (x : Xfer) (s : State) : Host.Outcome State Fault Refusal := s.run fun c => c.pmbus pmRevision x

/-- MFR_ID: one transfer of the command (R519). -/
def execMfrId (x : Xfer) (s : State) : Host.Outcome State Fault Refusal := s.run fun c => c.pmbus pmMfrId x

/-- MFR_MODEL: one transfer of the command (R519). -/
def execMfrModel (x : Xfer) (s : State) : Host.Outcome State Fault Refusal := s.run fun c => c.pmbus pmMfrModel x

/-- MFR_REVISION: one transfer of the command (R519). -/
def execMfrRevision (x : Xfer) (s : State) : Host.Outcome State Fault Refusal :=
  s.run fun c => c.pmbus pmMfrRevision x

/-- MFR_WIN_ADDR: one transfer of the command (R525). -/
def execMfrWinAddr (x : Xfer) (s : State) : Host.Outcome State Fault Refusal := s.run fun c => c.pmbus pmWinAddr x

/-- MFR_WIN_DATA: one transfer of the command (R526). -/
def execMfrWinData (x : Xfer) (s : State) : Host.Outcome State Fault Refusal := s.run fun c => c.pmbus pmWinData x

/-- MFR_REC_CURSOR: one transfer of the command (R525). -/
def execMfrRecCursor (x : Xfer) (s : State) : Host.Outcome State Fault Refusal := s.run fun c => c.pmbus pmRecCursor x

/-- MFR_REC_READ: one transfer of the command (R525). -/
def execMfrRecRead (x : Xfer) (s : State) : Host.Outcome State Fault Refusal := s.run fun c => c.pmbus pmRecRead x

/-- MFR_REC_FREEZE: one transfer of the command (R525). -/
def execMfrRecFreeze (x : Xfer) (s : State) : Host.Outcome State Fault Refusal := s.run fun c => c.pmbus pmRecFreeze x

/-- MFR_UPD_CTRL: one transfer of the command (R545). -/
def execMfrUpdCtrl (x : Xfer) (s : State) : Host.Outcome State Fault Refusal := s.run fun c => c.pmbus pmUpdCtrl x

/-- MFR_UPD_DATA: one transfer of the command (R545). -/
def execMfrUpdData (x : Xfer) (s : State) : Host.Outcome State Fault Refusal := s.run fun c => c.pmbus pmUpdData x

/-- MFR_ALERT_EVENTS: one transfer of the command (R525). -/
def execMfrAlertEvents (x : Xfer) (s : State) : Host.Outcome State Fault Refusal :=
  s.run fun c => c.pmbus pmAlertEvents x

/-- MFR_REQ_EVENTS: one transfer of the command (R525). -/
def execMfrReqEvents (x : Xfer) (s : State) : Host.Outcome State Fault Refusal := s.run fun c => c.pmbus pmReqEvents x

/-- MFR_EVSEQ: one transfer of the command (R525). -/
def execMfrEvseq (x : Xfer) (s : State) : Host.Outcome State Fault Refusal := s.run fun c => c.pmbus pmEvseq x

/-- UNSUPPORTED_COMMAND: a command code that TWB0 does not support (R519). -/
def execUnsupportedCommand (code : Byte) (x : Xfer) (s : State) : Host.Outcome State Fault Refusal :=
  s.run fun c => c.pmbus (pmUnsupported code.toNat) x

end Sys2Proof.Machine
end

