-- ==== Sys2Proof/Machine/CmdPower.lean ====
section
/-! DEFINITION. Meanings of the supply, reset, boot and domain commands (R82 to R110, R553, R556, R568). -/

namespace Sys2Proof.Machine

/-- AON_POWER_ON: VIN above the AON threshold (R82). -/
def execAonPowerOn (mv : Nat) (s : State) : Host.Outcome State Fault Refusal := s.run fun c => c.aonPowerOn mv

/-- AON_POWER_OFF: VIN below the AON threshold (R82). -/
def execAonPowerOff (mv : Nat) (s : State) : Host.Outcome State Fault Refusal := s.run fun c => c.aonPowerOff mv

/-- BROWN_OUT: VIN below the brown-out threshold (R82). -/
def execBrownOut (mv : Nat) (s : State) : Host.Outcome State Fault Refusal := s.run fun c => c.brownOut mv

/-- VIN_LOW: VIN below the operating minimum (R84). -/
def execVinLow (mv : Nat) (s : State) : Host.Outcome State Fault Refusal := s.run fun c => c.vinFell mv

/-- VIN_LOW_RECOVERY: VIN recovers without a brown-out (R84). -/
def execVinLowRecovery (mv : Nat) (s : State) : Host.Outcome State Fault Refusal := s.run fun c => c.vinLowRecovery mv

/-- POWER_FAIL: VIN below the power-fail threshold (R85). -/
def execPowerFail (mv : Nat) (s : State) : Host.Outcome State Fault Refusal := s.run fun c => c.powerFail mv

/-- POWER_FAIL_RECOVERY: VIN recovers from a power failure (R85). -/
def execPowerFailRecovery (mv : Nat) (s : State) : Host.Outcome State Fault Refusal :=
  s.run fun c => c.powerFailRecovery mv

/-- VIN_WARNING: VIN crosses the warning threshold (R82). -/
def execVinWarning (low : Bool) (mv : Nat) (s : State) : Host.Outcome State Fault Refusal :=
  s.run fun c => c.vinWarning low mv

/-- VIN_LOW_RISING: VIN above the operating minimum (R82). -/
def execVinLowRising (mv : Nat) (s : State) : Host.Outcome State Fault Refusal := s.run fun c => c.vinLowRising mv

/-- VIO_GOOD_CHANGE: VIO crosses its good or its not-good threshold; it resets no domain (R83). -/
def execVioGoodChange (good : Bool) (s : State) : Host.Outcome State Fault Refusal :=
  s.run fun c => { c with pwr.vioGood := good }

/-- RESET_PIN: RESET# goes low (R89). -/
def execResetPin (s : State) : Host.Outcome State Fault Refusal := s.run fun c => c.resetPin

/-- RESET_RELEASE: RESET# goes high (R88). -/
def execResetRelease (s : State) : Host.Outcome State Fault Refusal := s.run fun c => c.resetRelease

/-- SWRST: a write to SWRST (R88). -/
def execSwrst (m : Master) (v : Word) (s : State) : Host.Outcome State Fault Refusal :=
  s.run fun c => c.command1 m Reg.swrst v

/-- WATCHDOG_EXPIRY: the supervisor watchdog lapses (R92). -/
def execWatchdogExpiry (s : State) : Host.Outcome State Fault Refusal := s.run fun c => c.watchdogExpiry

/-- WDTKICK: a write to WDTKICK (R92). -/
def execWdtkick (m : Master) (v : Word) (s : State) : Host.Outcome State Fault Refusal :=
  s.run fun c => c.command1 m Reg.wdtkick v

/-- DRST: a write to DRST (R110). -/
def execDrst (m : Master) (v : Word) (s : State) : Host.Outcome State Fault Refusal :=
  s.run fun c => c.command1 m Reg.drst v

/-- PWRCTL_WRITE: a write to PWRCTL (R110). -/
def execPwrctlWrite (m : Master) (v : Word) (s : State) : Host.Outcome State Fault Refusal :=
  s.run fun c => c.command1 m Reg.pwrctl v

/-- DOMAIN_POWERED: a domain's supply has settled and it leaves reset (R110). -/
def execDomainPowered (d : Domain) (s : State) : Host.Outcome State Fault Refusal := s.run fun c => c.domainPowered d

/-- FUSE_LOAD_DONE: the fuse load ends; `differ`: the copies of a word differed (R93). -/
def execFuseLoadDone (differ : Bool) (s : State) : Host.Outcome State Fault Refusal :=
  s.run fun c => c.fuseLoadDone differ

/-- POWER_AND_LOCK_DONE: the domains of the boot are powered, and the PLL's lock is decided (R568). -/
def execPowerAndLockDone (pllLocked : Bool) (s : State) : Host.Outcome State Fault Refusal :=
  s.run fun c => c.powerAndLockDone pllLocked

/-- BOOT_ROM_CHECK_DONE: the boot ROM's check ends (R95). -/
def execBootRomCheckDone (s : State) : Host.Outcome State Fault Refusal := s.run fun c => c.bootRomCheckDone

/-- LOADER_DONE: the loader has chosen and checked an image (R553). -/
def execLoaderDone (s : State) : Host.Outcome State Fault Refusal := s.run fun c => c.loaderDone

/-- WARM_RESTART_DONE: the loader's check after a warm restart ends (R96). -/
def execWarmRestartDone (s : State) : Host.Outcome State Fault Refusal := s.run fun c => c.warmRestartDone

/-- BOOTDONE: a write to BOOTDONE (R97). -/
def execBootdone (m : Master) (v : Word) (s : State) : Host.Outcome State Fault Refusal :=
  s.run fun c => c.command1 m Reg.bootdone v

/-- SHIPCTL: a write to SHIPCTL (R102). -/
def execShipctl (m : Master) (v : Word) (s : State) : Host.Outcome State Fault Refusal :=
  s.run fun c => c.command1 m Reg.shipctl v

/-- WAKE: a qualified high of WAKE (R104). -/
def execWake (s : State) : Host.Outcome State Fault Refusal := s.run fun c => c.wake

/-- FLTCLR: a write to FLTCLR (R101). -/
def execFltclr (m : Master) (v : Word) (s : State) : Host.Outcome State Fault Refusal :=
  s.run fun c => c.command1 m Reg.fltclr v

end Sys2Proof.Machine
end

