-- ==== Sys2Proof/Machine/CmdRec.lean ====
section
/-! DEFINITION. Meanings of the recorder's commands (R477 to R490). -/

namespace Sys2Proof.Machine

/-- RECORDER_FLUSH_REQUEST: a write to RECCTL with FLUSH (R477). -/
def execRecorderFlushRequest (m : Master) (v : Word) (s : State) : Host.Outcome State Fault Refusal :=
  s.run fun c => c.command1 m Reg.recctl v

/-- FREEZE_WRITE: a write to RECCTL's freeze bits (R482). -/
def execFreezeWrite (m : Master) (v : Word) (s : State) : Host.Outcome State Fault Refusal :=
  s.run fun c => c.command1 m Reg.recctl v

/-- FLUSH_TIMER: the flush interval ends with records waiting (R477). -/
def execFlushTimer (s : State) : Host.Outcome State Fault Refusal := s.run fun c => c.flushTimer

/-- RECORD_WRITTEN: the record being written is verified, or fails (R477). -/
def execRecordWritten (ok : Bool) (s : State) : Host.Outcome State Fault Refusal := s.run fun c => c.recordWritten ok

/-- FLUSH_DONE: a flush ends (R477). -/
def execFlushDone (s : State) : Host.Outcome State Fault Refusal := s.run fun c => c.flushDone

/-- SECTOR_ERASE_DONE: the sector ahead is erased (R478). -/
def execSectorEraseDone (s : State) : Host.Outcome State Fault Refusal := s.run fun c => c.sectorErased'

/-- RECORDER_START: the recorder finds its place after reset (R480). -/
def execRecorderStart (s : State) : Host.Outcome State Fault Refusal := s.run fun c => c.recorderStart

/-- FRZMAX_EXPIRY: the longest freeze ends (R482). -/
def execFrzmaxExpiry (s : State) : Host.Outcome State Fault Refusal := s.run fun c => c.frzmaxExpiry

/-- WIN_READ: a read of WINv7 returns the last word and advances the cursor (R483). -/
def execWinRead (m : Master) (view : Fin 2) (s : State) : Host.Outcome State Fault Refusal :=
  s.run fun c => c.accessRead m (if view.val = 0 then Reg.win0 7 else Reg.win1 7) 4

/-- SNAPSHOT_DONE: a snapshot's write ends (R485). -/
def execSnapshotDone (s : State) : Host.Outcome State Fault Refusal := s.run fun c => c.snapshotDone

/-- SNAPDATA_READ: a read of SNAPDATA returns a word and advances the offset (R490). -/
def execSnapdataRead (m : Master) (s : State) : Host.Outcome State Fault Refusal :=
  s.run fun c => c.accessRead m Reg.snapdata 4

end Sys2Proof.Machine
end

