-- ==== Sys2Proof/Machine/CmdSeq.lean ====
section
/-! DEFINITION. Meanings of the rail sequencer's commands and steps (R368 to R391, R426 to R428). -/

namespace Sys2Proof.Machine

/-- RUNSTART: a write to SEQCMD with RUNSTART (R378). -/
def execRunstart (m : Master) (v : Word) (s : State) : Host.Outcome State Fault Refusal :=
  s.run fun c => c.command1 m Reg.seqcmd v

/-- RUNSHUT: a write to SEQCMD with RUNSHUT (R378). -/
def execRunshut (m : Master) (v : Word) (s : State) : Host.Outcome State Fault Refusal :=
  s.run fun c => c.command1 m Reg.seqcmd v

/-- STOP: a write to SEQCMD with STOP (R378). -/
def execStop (m : Master) (v : Word) (s : State) : Host.Outcome State Fault Refusal :=
  s.run fun c => c.command1 m Reg.seqcmd v

/-- RAILCMD: a write to RAILCMD (R382). -/
def execRailcmd (m : Master) (v : Word) (s : State) : Host.Outcome State Fault Refusal :=
  s.run fun c => c.command1 m Reg.railcmd v

/-- RAILCLR: a write to RAILCLR (R382). -/
def execRailclr (m : Master) (v : Word) (s : State) : Host.Outcome State Fault Refusal :=
  s.run fun c => c.command1 m Reg.railclr v

/-- SYNCSET: a write to SYNCSET (R387). -/
def execSyncset (m : Master) (v : Word) (s : State) : Host.Outcome State Fault Refusal :=
  s.run fun c => c.command1 m Reg.syncset v

/-- STEP_MEMORY_WRITE: a write to step memory (R378). -/
def execStepMemoryWrite (m : Master) (i : Fin 512) (v : Word) (s : State) : Host.Outcome State Fault Refusal :=
  s.run fun c => c.command1 m (Reg.stepMem i) v

/-- SEQCTL_WRITE: a write to SEQCTL (R391). -/
def execSeqctlWrite (m : Master) (v : Word) (s : State) : Host.Outcome State Fault Refusal :=
  s.run fun c => c.command1 m Reg.seqctl v

/-- PG_QUALIFIED: a PG's level has held for its qualification time (R370). -/
def execPgQualified (r : Fin 16) (s : State) : Host.Outcome State Fault Refusal := s.run fun c => c.pgQualified r

/-- RISE_WINDOW_EXPIRY: a rail's rise window ends without PG (R372). -/
def execRiseWindowExpiry (r : Fin 16) (s : State) : Host.Outcome State Fault Refusal := s.run fun c => c.riseExpiry r

/-- FAULT_TIMER_END: a rail's fault delay ends (R375). -/
def execFaultTimerEnd (r : Fin 16) (s : State) : Host.Outcome State Fault Refusal := s.run fun c => c.faultTimerEnd r

/-- RETRYOFF_EXPIRY: a rail's off time before a retry ends (R372). -/
def execRetryoffExpiry (r : Fin 16) (s : State) : Host.Outcome State Fault Refusal := s.run fun c => c.retryExpiry r

/-- DISCHARGED: a rail's discharge is complete (R377). -/
def execDischarged (r : Fin 16) (s : State) : Host.Outcome State Fault Refusal := s.run fun c => c.discharged r

/-- DCHTMO_EXPIRY: a rail's discharge time ends (R377). -/
def execDchtmoExpiry (r : Fin 16) (s : State) : Host.Outcome State Fault Refusal := s.run fun c => c.dchExpiry r

/-- SYNC_RISE: SYNC is qualified high (R387). -/
def execSyncRise (s : State) : Host.Outcome State Fault Refusal := s.run fun c => c.syncRise

/-- SYNC_TIMEOUT: a SYNC wait ends by time (R389). -/
def execSyncTimeout (s : State) : Host.Outcome State Fault Refusal := s.run fun c => c.syncTimeout

/-- CHECK_TIMEOUT: a CHECK ends by time (R380). -/
def execCheckTimeout (s : State) : Host.Outcome State Fault Refusal := s.run fun c => c.checkTimeout

/-- WAIT_EXPIRY: a WAIT ends (R380). -/
def execWaitExpiry (s : State) : Host.Outcome State Fault Refusal := s.run fun c => c.waitExpiry

/-- AUXILIARY_LOST: the auxiliary supply is out of its window (R384). -/
def execAuxiliaryLost (s : State) : Host.Outcome State Fault Refusal := s.run fun c => c.auxLost

/-- AUXILIARY_GOOD: the auxiliary supply is good (R383). -/
def execAuxiliaryGood (s : State) : Host.Outcome State Fault Refusal := s.run fun c => c.auxiliaryGood

/-- AUXILIARY_STALE: no auxiliary result within its time (R383). -/
def execAuxiliaryStale (s : State) : Host.Outcome State Fault Refusal := s.run fun c => c.auxiliaryStale

/-- SYNC_QUALIFIED_LOW: SYNC is qualified low (R387). -/
def execSyncQualifiedLow (s : State) : Host.Outcome State Fault Refusal := s.run fun c => c.syncFell

/-- SYNC_PULSE_TIMER: the next edge of a SYNC pulse (R388). -/
def execSyncPulseTimer (s : State) : Host.Outcome State Fault Refusal := s.run fun c => c.syncPulse

/-- SEQ_EN: the sequencer executes an EN step (R426). -/
def execSeqEn (s : State) : Host.Outcome State Fault Refusal := s.run fun c => c.seqRun fun st => st matches .en _ _

/-- SEQ_WAIT: the sequencer executes a WAIT step (R426). -/
def execSeqWait (s : State) : Host.Outcome State Fault Refusal := s.run fun c => c.seqRun fun st => st matches .wait _

/-- SEQ_CHECK: the sequencer executes a CHECK step (R426). -/
def execSeqCheck (s : State) : Host.Outcome State Fault Refusal :=
  s.run fun c => c.seqRun fun st => st matches .check _ _ _ _

/-- SEQ_JUMP: the sequencer executes a JUMP step (R426). -/
def execSeqJump (s : State) : Host.Outcome State Fault Refusal :=
  s.run fun c => c.seqRun fun st => st matches .jump _ _ _

/-- SEQ_SYNC: the sequencer executes a SYNC step (R389). -/
def execSeqSync (s : State) : Host.Outcome State Fault Refusal :=
  s.run fun c => c.seqRun fun st => st matches .sync _ _

/-- SEQ_END: the sequencer executes an END step (R426). -/
def execSeqEnd (s : State) : Host.Outcome State Fault Refusal := s.run fun c => c.seqRun fun st => st matches .end_

/-- RESERVED_STEP_WORD: the sequencer reaches a reserved step word (R428). -/
def execReservedStepWord (s : State) : Host.Outcome State Fault Refusal := s.run fun c => c.seqReserved

end Sys2Proof.Machine
end

