-- ==== Sys2Proof/Machine/CmdSpl.lean ====
section
/-! DEFINITION. Meanings of the set-point link's commands (R207 to R220). -/

namespace Sys2Proof.Machine

/-- TRANSACTION_ABANDONED: a transaction ends before its frame is complete (R207). -/
def execTransactionAbandoned (s : State) : Host.Outcome State Fault Refusal := s.run fun c => c.splAbandon

/-- NOP: a NOP frame is decided (R212). -/
def execNop (f : SplFields) (s : State) : Host.Outcome State Fault Refusal := s.run fun c => c.splDecide 0 f

/-- GOAL: a GOAL frame is decided (R214). -/
def execGoal (f : SplFields) (s : State) : Host.Outcome State Fault Refusal := s.run fun c => c.splDecide 1 f

/-- NOTRD: a NOTRD frame is decided (R216). -/
def execNotrd (f : SplFields) (s : State) : Host.Outcome State Fault Refusal := s.run fun c => c.splDecide 2 f

/-- MEASRD: a MEASRD frame is decided (R212). -/
def execMeasrd (f : SplFields) (s : State) : Host.Outcome State Fault Refusal := s.run fun c => c.splDecide 3 f

/-- SYNC: a SYNC frame is decided (R211). -/
def execSync (f : SplFields) (s : State) : Host.Outcome State Fault Refusal := s.run fun c => c.splSync f

/-- RESERVED_OP: a frame with a reserved OP is decided (R211). -/
def execReservedOp (op : BitVec 4) (f : SplFields) (s : State) : Host.Outcome State Fault Refusal :=
  s.run fun c => c.splDecide op.toNat f

/-- SPALERT_PULSE: the repetition interval of SPALERT# ends (R217). -/
def execSpalertPulse (s : State) : Host.Outcome State Fault Refusal := s.run fun c => c.spalertPulse

/-- NQCLR: a write to SPLCTL with NQCLR (R220). -/
def execNqclr (m : Master) (v : Word) (s : State) : Host.Outcome State Fault Refusal :=
  s.run fun c => c.command1 m Reg.splctl v

/-- SPL_ENABLE: a write to SPLCTL with EN (R220). -/
def execSplEnable (m : Master) (v : Word) (s : State) : Host.Outcome State Fault Refusal :=
  s.run fun c => c.command1 m Reg.splctl v

end Sys2Proof.Machine
end

