-- ==== Sys2Proof/Machine/CmdStrand.lean ====
section
/-! DEFINITION. Meanings of the commands of strands, events, conditioned inputs and counters (R430 to R457). -/

namespace Sys2Proof.Machine

/-- START: a write to STRCMD with start bits (R430). -/
def execStart (m : Master) (v : Word) (s : State) : Host.Outcome State Fault Refusal :=
  s.run fun c => c.command1 m Reg.strcmd v

/-- STRAND_STOP: a write to STRCMD with stop bits (R430). -/
def execStrandStop (m : Master) (v : Word) (s : State) : Host.Outcome State Fault Refusal :=
  s.run fun c => c.command1 m Reg.strcmd v

/-- QUANTUM_EXPIRY: the strand holding issue has held it for its quantum (R432). -/
def execQuantumExpiry (s : State) : Host.Outcome State Fault Refusal := s.run fun c => c.quantumExpiry

/-- STARVATION_PROMOTION: a strand's starvation timer passes its limit (R434). -/
def execStarvationPromotion (n : Fin 8) (s : State) : Host.Outcome State Fault Refusal := s.run fun c => c.promote n

/-- SWEV: a write to SWEV (R441). -/
def execSwev (m : Master) (v : Word) (s : State) : Host.Outcome State Fault Refusal :=
  s.run fun c => c.command1 m Reg.swev v

/-- EVQPOP: a write to EVQPOP with POP (R439). -/
def execEvqpop (m : Master) (v : Word) (s : State) : Host.Outcome State Fault Refusal :=
  s.run fun c => c.command1 m Reg.evqpop v

/-- LOST_CLEAR: a write to EVQPOP with CLRLOST (R451). -/
def execLostClear (m : Master) (v : Word) (s : State) : Host.Outcome State Fault Refusal :=
  s.run fun c => c.command1 m Reg.evqpop v

/-- INPUT_QUALIFIED: a conditioned input's level is qualified, after `edges` raw edges (R443). -/
def execInputQualified (i : Fin 32) (level : Bool) (edges : Nat) (s : State) : Host.Outcome State Fault Refusal :=
  s.run fun c => c.inputQualified i level edges

/-- TOGGLE_WINDOW_END: an input's toggle window ends (R443). -/
def execToggleWindowEnd (i : Fin 32) (edges : Nat) (s : State) : Host.Outcome State Fault Refusal :=
  s.run fun c => (c.windowEnd i edges).inputHook c i

/-- STUCK_EXPIRY: an input has not changed within its stuck time (R443). -/
def execStuckExpiry (i : Fin 32) (s : State) : Host.Outcome State Fault Refusal :=
  s.run fun c => (c.stuckExpiry i).inputHook c i

/-- INCFG_WRITE: a write to INiCFG (R455). -/
def execIncfgWrite (m : Master) (i : Fin 32) (v : Word) (s : State) : Host.Outcome State Fault Refusal :=
  s.run fun c => c.command1 m (Reg.incfg i) v

/-- PMON_ENABLE: a write to PMCTL with EN (R446). -/
def execPmonEnable (m : Master) (v : Word) (s : State) : Host.Outcome State Fault Refusal :=
  s.run fun c => c.command1 m Reg.pmctl v

/-- PMON_CLEAR: a write to PMCTL with CLR (R446). -/
def execPmonClear (m : Master) (v : Word) (s : State) : Host.Outcome State Fault Refusal :=
  s.run fun c => c.command1 m Reg.pmctl v

/-- CNTCFG_WRITE: a write to CNTnCFG (R457). -/
def execCntcfgWrite (m : Master) (n : Fin 8) (v : Word) (s : State) : Host.Outcome State Fault Refusal :=
  s.run fun c => c.command1 m (Reg.cntCfg n) v

end Sys2Proof.Machine
end

