-- ==== Sys2Proof/Machine/Flags.lean ====
section
/-! DEFINITION. Conditions, guards and the arithmetic helpers of the ZIS operation columns (R400, R401, Tables 13.3 and
13.5). -/

namespace Sys2Proof.Machine

/-- A comparison of Table 13.5. -/
def Cond.holds (c : Cond) (a b : Word) : Bool :=
  match c with
  | .eq => a == b
  | .ne => a != b
  | .lt => a.slt b
  | .ge => !a.slt b
  | .ltu => a.ult b
  | .geu => !a.ult b

/-- A guard over the predicates (R401). -/
def Guard.holds (g : Guard) (p : List Bool) : Bool :=
  match g with
  | .always => true
  | .when k want => p.getD k.val false == want

/-- shift(x, s): x × 2^s exactly, or rounded to nearest with ties away from zero (Table 13.3). -/
def shiftI (x s : Int) : Int := if 0 ≤ s then x * 2 ^ s.toNat else divHalfAway x (2 ^ (-s).toNat : Nat)

/-- sat32 as a word. -/
def satWord (x : Int) : Word := wordI (sat32 x)

/-- The lesser and the greater, signed. -/
def sMin (a b : Word) : Word := if b.slt a then b else a

/-- The greater, signed. -/
def sMax (a b : Word) : Word := if a.slt b then b else a

/-- The lesser, unsigned. -/
def uMin (a b : Word) : Word := if b.ult a then b else a

/-- The greater, unsigned. -/
def uMax (a b : Word) : Word := if a.ult b then b else a

/-- DIV (Table 13.7): truncated; −1 for divisor 0; −2^31 in the overflow case, by wrapping. -/
def divS (a b : Word) : Word := if b = 0 then 0xFFFFFFFF else wordI (a.toInt.tdiv b.toInt)

/-- REM (Table 13.7). -/
def remS (a b : Word) : Word := if b = 0 then a else wordI (a.toInt - b.toInt * a.toInt.tdiv b.toInt)

/-- DIVU (Table 13.7). -/
def divU (a b : Word) : Word := if b = 0 then 0xFFFFFFFF else word (a.toNat / b.toNat)

/-- REMU (Table 13.7). -/
def remU (a b : Word) : Word := if b = 0 then a else word (a.toNat % b.toNat)

/-- The arithmetic shift right by a shift amount. -/
def sraW (a : Word) (n : Nat) : Word := a.sshiftRight n

/-- ADIV's quotient (Table 13.16). -/
def accDiv (a : Int) (d : Word) : Word :=
  if d = 0 then (if 0 < a then 0x7FFFFFFF else if a < 0 then 0x80000000 else 0) else satWord (a.tdiv d.toInt)

/-- One lane of VMULDIV (Table 13.19). -/
def mulDiv (x m d : Word) : Word := if d = 0 then 0 else satWord ((x.toInt * m.toInt).tdiv d.toInt)

end Sys2Proof.Machine
end

