-- ==== Sys2Proof/Machine/Operands.lean ====
section
/-! DEFINITION. Operand forms of ZIS: registers of both engines, sign-extended immediates, strand and loop addresses,
lanes (R398, R399, R408, R416, R419, R420). -/

namespace Sys2Proof.Machine

/-! General registers and predicates; g0 reads 0 and discards writes (R399). -/

/-- A general register of a list of sixteen. -/
def gRead (g : List Word) (r : Fin 16) : Word := if r.val = 0 then 0 else g.getD r.val 0

/-- Write a general register. -/
def gWrite (g : List Word) (r : Fin 16) (v : Word) : List Word := if r.val = 0 then g else g.set r.val v

/-- A general register of an engine. -/
def Chip.gGet (c : Chip) (e : Engine) (r : Fin 16) : Word :=
  match e with
  | .strand n => gRead (c.strand n.val).g r
  | .tile t => gRead (c.tile t.val).g r

/-- Write a general register of an engine. -/
def Chip.gSet (c : Chip) (e : Engine) (r : Fin 16) (v : Word) : Chip :=
  match e with
  | .strand n => c.modStrand n.val fun s => { s with g := gWrite s.g r v }
  | .tile t => c.modTile t.val fun T => { T with g := gWrite T.g r v }

/-- The predicates of an engine. -/
def Chip.preds (c : Chip) (e : Engine) : List Bool :=
  match e with
  | .strand n => (c.strand n.val).p
  | .tile t => (c.tile t.val).p

/-- One predicate. -/
def Chip.pGet (c : Chip) (e : Engine) (k : Fin 4) : Bool := (c.preds e).getD k.val false

/-- Write one predicate. -/
def Chip.pSet (c : Chip) (e : Engine) (k : Fin 4) (b : Bool) : Chip :=
  match e with
  | .strand n => c.modStrand n.val fun s => { s with p := s.p.set k.val b }
  | .tile t => c.modTile t.val fun T => { T with p := T.p.set k.val b }

/-! Immediates and addresses. -/

/-- sext to 32 bits. -/
def sext {w : Nat} (x : BitVec w) : Word := x.signExtend 32

/-- zext to 32 bits. -/
def zext {w : Nat} (x : BitVec w) : Word := x.zeroExtend 32

/-- The address of a strand's memory instruction: g[ra] + sext(imm14) (R408). -/
def Chip.strandAddr (c : Chip) (n : Fin 8) (ra : Fin 16) (imm : BitVec 14) : Word := c.gGet (.strand n) ra + sext imm

/-- The address of a loop memory instruction, `k` bytes on: with L = 1 in the own loop RAM, modulo its size (R416). -/
def Chip.loopAddr (c : Chip) (t : Fin 2) (a : LAddr) (k : Nat) : Nat :=
  let x := c.gGet (.tile t) a.ga + sext a.off + word k
  if a.l then loopRam t.val + x.toNat % 16384 else x.toNat

/-! Accumulators, vectors and masks of a loop engine (R398). -/

/-- An accumulator. -/
def Tile.acc (T : Tile) (k : Fin 4) : Int := T.a.getD k.val 0

/-- Write an accumulator, by sat64 (R417). -/
def Tile.putAcc (T : Tile) (k : Fin 4) (x : Int) : Tile := { T with a := T.a.set k.val (sat64 x) }

/-- A lane of a vector. -/
def Tile.lane (T : Tile) (v : Fin 8) (k : Nat) : Word := (T.v.getD v.val []).getD k 0

/-- Write a lane of a vector. -/
def Tile.putLane (T : Tile) (v : Fin 8) (k : Nat) (x : Word) : Tile :=
  { T with v := T.v.modify v.val fun l => l.set k x }

/-- The lanes of the range in force (R399). -/
def Tile.range (T : Tile) : List Nat := ((List.range (8 * T.vn)).map fun i => 8 * T.vg0 + i).filter (· < 128)

/-- The lanes an instruction acts on: with m = 1 those of the range whose MK bit is 1 (R420). -/
def Tile.lanes (T : Tile) (m : Bool) : List Nat := T.range.filter fun k => !m || T.vmask.getLsbD k

/-- Operand b in a lane (R420). -/
def Tile.operand (T : Tile) (b : VOperand) (k : Nat) : Word :=
  match b with
  | .vec v => T.lane v k
  | .reg g => gRead T.g g

/-- Write a function of the lane number to the lanes given. -/
def Tile.putLanes (T : Tile) (v : Fin 8) (ks : List Nat) (f : Nat → Word) : Tile :=
  { T with v := T.v.modify v.val fun l => l.mapIdx fun k x => if ks.contains k then f k else x }

end Sys2Proof.Machine
end

