-- ==== Sys2Proof/Machine/Zis.lean ====
section
/-! DEFINITION. How a strand or a loop engine executes one ZIS instruction: fetch, guard, exceptions, program counter,
repeats and costs, and the bodies the instructions share (R397 to R425, R447; log 42). -/

namespace Sys2Proof.Machine

/-- What stops an instruction: the strand's exception code with its faulting address, or the loop engine's cause of
Table 9.1 (R415, R424). -/
structure Exc where
  code  : Nat
  addr  : Word := 0
  imm   : Option Nat := none
  cause : Nat := 6

/-! Strands. -/

/-- A slot or exception count of PMON for strand `n`. -/
def Chip.slot (c : Chip) (n sel k : Nat) (user : Bool) : Chip :=
  if k = 0 then c else c.pmonAdd { sel := sel, code := some n, user := some user } k

/-- The slots of one instruction: offered, retired, wasted and starved at the back (R447). -/
def Chip.slots (c : Chip) (n retired wasted back : Nat) (user : Bool) : Chip :=
  (((c.slot n 1 (retired + wasted + back) user).slot n 2 retired user).slot n 3 wasted user).slot n 5 back user

/-- An instruction can be fetched at a strand's PC (R397, R411). -/
def Chip.fetchGrant (c : Chip) (n : Nat) : Bool :=
  let a := (c.strand n).pc.toNat
  a % 4 == 0 && (a < 0x100000 || inSram a || (inBootRom a && (c.strand n).priv))

/-- The fetch of strand `n`: whether it succeeds, and what it leaves; it is a memory read of the strand, so that it is
counted and a flash error on it is corrected and logged as on any read (R411, R435, R446, R462; log 42). -/
def Chip.fetch (c : Chip) (n : Fin 8) : Bool × Chip :=
  let a := (c.strand n.val).pc.toNat
  if !c.fetchGrant n.val then (false, c)
  else match c.memRead (.strand n) a 4 with
    | (some _, c) => (true, c)
    | (none, c) => (false, c.busErrors (.strand n) a)

/-- The strand can execute: SUP is up and it is READY (R429). -/
def Chip.strandRuns (c : Chip) (n : Nat) : Bool := c.up .sup && (c.strand n).run == .ready

/-- The strand's PC moves on. -/
def Chip.setPc (c : Chip) (n : Nat) (pc : Word) : Chip := c.modStrand n fun s => { s with pc := pc }

/-- Strand `n` executes one instruction: it holds issue, fetches, and runs `f`, which starts with the PC on the next
instruction and answers the change and what stops it; `wasted` says how many of its slots a completed one wastes. -/
def Chip.strandRun (c : Chip) (n : Fin 8) (slots : Nat) (wasted : Chip → Nat) (g : Guard)
    (f : Chip → Chip × Option Exc) : Chip :=
  if !c.strandRuns n.val then c else
  let S := c.strand n.val
  match c.fetch n with
  | (false, c) => (c.issueTo n.val).takeException n.val 5 S.pc S.pc
  | (true, c) =>
    let c1 := (c.issueTo n.val).setPc n.val (S.pc + 4)
    if !Guard.holds g S.p then c1.slots n.val 1 0 (slots - 1) !S.priv
    else
      match f c1 with
      | (c2, none) => c2.slots n.val 1 (wasted c) (slots - 1 - wasted c) !S.priv
      | (c2, some x) =>
        let soft := x.code = 6 || x.code = 7
        (c2.slots n.val (b2n soft) 1 0 !S.priv).takeException n.val x.code (if soft then S.pc + 4 else S.pc) x.addr x.imm

/-! Loop engines. -/

/-- Repeats whose body ends at `next`: the passes count down, the step is added, and the engine goes back or on
(R418). -/
def Tile.endPass (T : Tile) (next : Nat) : List Repeat → Tile
  | [] => { T with pc := next, rpt := [] }
  | r :: rest =>
    if next ≠ r.start + 4 * r.len then { T with pc := next, rpt := r :: rest }
    else
      let T := { T with g := gWrite T.g r.gi (gRead T.g r.gi + sext r.inc) }
      if 1 < r.left then { T with pc := r.start, rpt := { r with left := r.left - 1 } :: rest }
      else T.endPass next rest

/-- A loop engine executes one instruction of `cost` steps: fetch, guard, `f`, and the program counter; a condition that
would raise an exception is a self-diagnosis failure, as is a step count over WCS (R291, R397, R401, R418, R422,
R424). -/
def Chip.tileRun (c : Chip) (t : Fin 2) (cost : Nat) (g : Guard) (f : Chip → Chip × Option Exc) : Chip :=
  let T := c.tile t.val
  if !(T.running && c.up (tileDom t.val)) then c else
  let c := c.modTile t.val fun T => { T with stepped := true }
  if 0x4000 ≤ T.pc then c.selfDiagnosis t.val 6
  else
  let c := c.pmonAdd (c.accessOccur (.tile t) 6 (loopRam t.val + T.pc))
  if c.parityBad (loopRam t.val + T.pc) 4 then
    (c.parityError (.tile t) (loopRam t.val + T.pc)).selfDiagnosis t.val 2
  else
    let c := (c.modTile t.val fun T => { T with steps := T.steps + cost }).pmonAdd
      { sel := 16, code := some (8 + t.val) } cost
    if c.fo.wcs < T.steps + cost then c.selfDiagnosis t.val 5 else
    let move (c : Chip) : Chip := c.modTile t.val fun U => U.endPass (T.pc + 4) U.rpt
    if !Guard.holds g T.p then move c
    else
      match f c with
      | (c, none) => move c
      | (c, some x) => c.selfDiagnosis t.val x.cause

/-- Either engine executes an instruction that both profiles have. -/
def Chip.engRun (c : Chip) (e : Engine) (cost : Nat) (g : Guard) (f : Chip → Chip) : Chip :=
  match e with
  | .strand n => c.strandRun n cost (fun _ => 0) g fun c => (f c, none)
  | .tile t => c.tileRun t cost g fun c => (f c, none)

/-! Shared bodies of both profiles (R404 to R407). -/

/-- rd ← f(ra, rb). -/
def Chip.alu (c : Chip) (e : Engine) (cost : Nat) (g : Guard) (rd ra rb : Fin 16) (f : Word → Word → Word) : Chip :=
  c.engRun e cost g fun c => c.gSet e rd (f (c.gGet e ra) (c.gGet e rb))

/-- rd ← f(ra). -/
def Chip.alui (c : Chip) (e : Engine) (g : Guard) (rd ra : Fin 16) (f : Word → Word) : Chip :=
  c.engRun e 1 g fun c => c.gSet e rd (f (c.gGet e ra))

/-- p[pd] ← f(p[ps], p[pt]). -/
def Chip.plogic (c : Chip) (e : Engine) (g : Guard) (pd ps pt : Fin 4) (f : Bool → Bool → Bool) : Chip :=
  c.engRun e 1 g fun c => c.pSet e pd (f (c.pGet e ps) (c.pGet e pt))

/-! Supervisor memory instructions (R408 to R410). -/

/-- A load of `n` bytes into rd; `f` extends the value. -/
def Chip.loadInto (c : Chip) (k : Fin 8) (g : Guard) (rd ra : Fin 16) (imm : BitVec 14) (n : Nat) (f : Nat → Word) : Chip :=
  c.strandRun k 1 (fun _ => 0) g fun c =>
    let a := c.strandAddr k ra imm
    if a.toNat % n ≠ 0 then (c, some { code := 3, addr := a })
    else match c.busRead (.strand k) a.toNat n with
      | (some v, c) => (c.gSet (.strand k) rd (f v), none)
      | (none, c) => (c, some { code := 4, addr := a })

/-- A store of the low `n` bytes of rs. -/
def Chip.storeFrom (c : Chip) (k : Fin 8) (g : Guard) (rs ra : Fin 16) (imm : BitVec 14) (n : Nat) : Chip :=
  c.strandRun k 1 (fun _ => 0) g fun c =>
    let a := c.strandAddr k ra imm
    if a.toNat % n ≠ 0 then (c, some { code := 3, addr := a })
    else match c.busWrite (.strand k) a.toNat ((c.gGet (.strand k) rs).toNat % 256 ^ n) n with
      | (true, c) => (c, none)
      | (false, c) => (c, some { code := 4, addr := a })

/-- SWAPW and CASW: only in data SRAM and at system level (R410). -/
def Chip.atomic (c : Chip) (k : Fin 8) (g : Guard) (rd ra rb : Fin 16) (cas : Bool) : Chip :=
  c.strandRun k 2 (fun _ => 0) g fun c =>
    let a := c.gGet (.strand k) ra
    let bus : Exc := { code := 4, addr := a }
    if a.toNat % 4 ≠ 0 then (c, some { code := 3, addr := a })
    else if !inSram a.toNat || c.userLevel (.strand k) then (c.busErrors (.strand k) a.toNat, some bus)
    else match c.busRead (.strand k) a.toNat 4 with
      | (none, c) => (c, some bus)
      | (some t, c) =>
        if cas && word t ≠ c.gGet (.strand k) rd then (c.gSet (.strand k) rd (word t), none)
        else match c.busWrite (.strand k) a.toNat (c.gGet (.strand k) rb).toNat 4 with
          | (false, c) => (c, some bus)
          | (true, c) => (c.gSet (.strand k) rd (word t), none)

/-! Control transfers and system instructions (R411 to R415). -/

/-- The condition of a branch holds. -/
def Chip.branchTaken (c : Chip) (k : Fin 8) (b : BCond) : Bool :=
  match b with
  | .cmp x ra rb => Cond.holds x (c.gGet (.strand k) ra) (c.gGet (.strand k) rb)
  | .bp p => c.pGet (.strand k) p
  | .bnp p => !c.pGet (.strand k) p

/-- B.cond. -/
def Chip.branch (c : Chip) (k : Fin 8) (b : BCond) (off : BitVec 15) : Chip :=
  let pc := (c.strand k.val).pc
  let taken := c.branchTaken k b
  c.strandRun k (1 + b2n taken) (fun _ => b2n taken) .always fun c =>
    (if taken then c.setPc k.val (pc + sext off * 4) else c, none)

/-- JAL. -/
def Chip.jumpLink (c : Chip) (k : Fin 8) (off : BitVec 26) : Chip :=
  let pc := (c.strand k.val).pc
  c.strandRun k 2 (fun _ => 1) .always fun c =>
    ((c.gSet (.strand k) 15 (pc + 4)).setPc k.val (pc + sext off * 4), none)

/-- JALR. -/
def Chip.jumpReg (c : Chip) (k : Fin 8) (rd ra : Fin 16) (imm : BitVec 14) : Chip :=
  let pc := (c.strand k.val).pc
  c.strandRun k 2 (fun _ => 1) .always fun c =>
    let t := c.strandAddr k ra imm
    if t.toNat % 4 ≠ 0 then (c, some { code := 3, addr := t })
    else ((c.gSet (.strand k) rd (pc + 4)).setPc k.val t, none)

/-- A system instruction that user level may not execute (R412). -/
def Chip.sysRun (c : Chip) (k : Fin 8) (slots wasted : Nat) (user : Bool) (f : Chip → Chip) : Chip :=
  c.strandRun k slots (fun _ => wasted) .always fun c =>
    if user || (c.strand k.val).priv then (f c, none) else (c, some { code := 2 })

/-- The value of a control register (Table 13.13). -/
def Strand.ctrl (s : Strand) (n : Nat) : Nat → Word
  | 0 => word n
  | 1 => pack [(0, b2n s.priv), (1, b2n s.ppriv)]
  | 2 => s.epc
  | 3 => word s.ecause
  | 4 => s.eaddr
  | 5 => s.tvec
  | 6 => word s.eval
  | _ => s.scr

/-- A write to a control register, in its writable fields (Table 13.13). -/
def Strand.putCtrl (s : Strand) (cn : Nat) (v : Word) : Strand :=
  match cn with
  | 1 => { s with priv := v.getLsbD 0, ppriv := v.getLsbD 1 }
  | 2 => { s with epc := v }
  | 5 => { s with tvec := v &&& 0xFFFFFFFC }
  | 7 => { s with scr := v }
  | _ => s

/-- CRD and CWR on a reserved control register raise ILLEGAL (R412). -/
def Chip.ctrlRun (c : Chip) (k : Fin 8) (cn : Fin 16) (user : Bool) (f : Chip → Chip) : Chip :=
  if 8 ≤ cn.val then c.strandRun k 1 (fun _ => 0) .always fun c => (c, some { code := 1 })
  else c.sysRun k 1 0 user f

/-! Loop memory instructions (R416). -/

/-- A refused access of a loop engine (R424). -/
def refused : Exc := { code := 4, cause := 6 }

/-- A read by a loop engine, aligned to its size; with L = 0 only of a word (R416, R424). -/
def Chip.loopRead (c : Chip) (t : Fin 2) (a : LAddr) (k n : Nat) : Chip × Except Exc Nat :=
  let x := c.loopAddr t a k
  if x % n ≠ 0 || (!a.l && n ≠ 4) then (c, .error refused)
  else match c.busRead (.tile t) x n with
    | (some v, c) => (c, .ok v)
    | (none, c) =>
      let par := (shadowAt (.tile t) x).isSome || (inLoopRam x && c.parityBad x n)
      (c, .error { code := 4, cause := if par then 2 else 6 })

/-- A write by a loop engine. -/
def Chip.loopWrite (c : Chip) (t : Fin 2) (a : LAddr) (k v n : Nat) : Chip × Option Exc :=
  let x := c.loopAddr t a k
  if x % n ≠ 0 || (!a.l && n ≠ 4) then (c, some refused)
  else match c.busWrite (.tile t) x v n with
    | (true, c) => (c, none)
    | (false, c) => (c, some refused)

/-- LDQ: `f` extends the value. -/
def Chip.loopLoad (c : Chip) (t : Fin 2) (g : Guard) (cost : Nat) (rd : Fin 16) (a : LAddr) (n : Nat)
    (f : Nat → Word) : Chip :=
  c.tileRun t cost g fun c =>
    match c.loopRead t a 0 n with
    | (c, .ok v) => (c.gSet (.tile t) rd (f v), none)
    | (c, .error x) => (c, some x)

/-- A doubleword is aligned and in the own loop RAM (R416). -/
def Chip.doubleOk (c : Chip) (t : Fin 2) (a : LAddr) : Bool := a.l && c.loopAddr t a 0 % 8 == 0

/-- ALD: least significant word first. -/
def Chip.accLoad (c : Chip) (t : Fin 2) (g : Guard) (ad : Fin 4) (a : LAddr) : Chip :=
  c.tileRun t 2 g fun c =>
    if !c.doubleOk t a then (c, some refused) else
    match c.loopRead t a 0 4 with
    | (c, .error x) => (c, some x)
    | (c, .ok lo) =>
      match c.loopRead t a 4 4 with
      | (c, .error x) => (c, some x)
      | (c, .ok hi) => (c.modTile t.val fun T => T.putAcc ad (signed 64 (lo + 2 ^ 32 * hi)), none)

/-- AST. -/
def Chip.accStore (c : Chip) (t : Fin 2) (g : Guard) (as_ : Fin 4) (a : LAddr) : Chip :=
  c.tileRun t 2 g fun c =>
    if !c.doubleOk t a then (c, some refused) else
    let v := bitsI 64 ((c.tile t.val).acc as_)
    match c.loopWrite t a 0 (v % 2 ^ 32) 4 with
    | (c, some x) => (c, some x)
    | (c, none) => c.loopWrite t a 4 (v / 2 ^ 32) 4

/-! Accumulator instructions (R417). -/

/-- a[ad] ← f of the tile. -/
def Chip.accOp (c : Chip) (t : Fin 2) (g : Guard) (ad : Fin 4) (f : Tile → Int) : Chip :=
  c.tileRun t 1 g fun c => (c.modTile t.val fun T => T.putAcc ad (f T), none)

/-- g[rd] ← f of the tile. -/
def Chip.accOut (c : Chip) (t : Fin 2) (g : Guard) (cost : Nat) (rd : Fin 16) (f : Tile → Word) : Chip :=
  c.tileRun t cost g fun c => (c.gSet (.tile t) rd (f (c.tile t.val)), none)

/-- shift(ra × rb, s) of a tile's registers. -/
def Tile.product (T : Tile) (ra rb : Fin 16) (s : Int) : Int := shiftI ((gRead T.g ra).toInt * (gRead T.g rb).toInt) s

/-- The shift that MACX and MSUX take from a register, −63 to 63. -/
def Tile.regShift (T : Tile) (gs : Fin 16) : Int := clampI (-63) 63 (gRead T.g gs).toInt

/-! Vector instructions (R419 to R421). -/

/-- The steps of a vector instruction that costs `k` steps a group. -/
def Chip.groups (c : Chip) (t : Fin 2) (k : Nat) : Nat := k * (c.tile t.val).vn

/-- Accesses lane by lane, in ascending order, until one fails. -/
def laneRun (f : Chip → Nat → Chip × Option Exc) : List Nat → Chip → Chip × Option Exc
  | [], c => (c, none)
  | k :: ks, c =>
    match f c k with
    | (c, none) => laneRun f ks c
    | r => r

/-- With L = 0 a vector access is of words at a stride of at least 4 (R419). -/
def vecOk (a : LAddr) (sz : Size) (st : Fin 6) : Bool := a.l || (sz == .word && 4 ≤ 2 ^ st.val)

/-- VLD. -/
def Chip.vecLoad (c : Chip) (t : Fin 2) (sz : Size) (sgn m : Bool) (st : Fin 6) (v : Fin 8) (a : LAddr) : Chip :=
  c.tileRun t (c.groups t (if a.l then 1 else 2)) .always fun c =>
    if !vecOk a sz st then (c, some refused) else
    laneRun (fun c k =>
      match c.loopRead t a (k * 2 ^ st.val) sz.bytes with
      | (c, .ok x) =>
        let w := if sgn then wordI (signed (8 * sz.bytes) x) else word x
        (c.modTile t.val fun T => T.putLane v k w, none)
      | (c, .error x) => (c, some x)) ((c.tile t.val).lanes m) c

/-- VST. -/
def Chip.vecStore (c : Chip) (t : Fin 2) (sz : Size) (m : Bool) (st : Fin 6) (v : Fin 8) (a : LAddr) : Chip :=
  c.tileRun t (c.groups t (if a.l then 1 else 2)) .always fun c =>
    if !vecOk a sz st then (c, some refused) else
    laneRun (fun c k =>
      c.loopWrite t a (k * 2 ^ st.val) (((c.tile t.val).lane v k).toNat % 256 ^ sz.bytes) sz.bytes)
      ((c.tile t.val).lanes m) c

/-- A vector operation on the tile, of `k` steps a group. -/
def Chip.vecOp (c : Chip) (t : Fin 2) (k : Nat) (f : Tile → Tile) : Chip :=
  c.tileRun t (c.groups t k) .always fun c => (c.modTile t.val f, none)

/-- vd[k] ← f(va[k], b[k]) in the lanes acted on. -/
def Chip.vecAlu (c : Chip) (t : Fin 2) (k : Nat) (m : Bool) (vd va : Fin 8) (b : VOperand) (f : Word → Word → Word) : Chip :=
  c.vecOp t k fun T => T.putLanes vd (T.lanes m) fun i => f (T.lane va i) (T.operand b i)

/-- a[ad] ← f over the lanes acted on. -/
def Chip.vecAcc (c : Chip) (t : Fin 2) (m : Bool) (ad : Fin 4) (f : Tile → Int → Nat → Int) : Chip :=
  c.vecOp t 1 fun T => T.putAcc ad ((T.lanes m).foldl (f T) (T.acc ad))

/-- VSCAN: each lane in range gets the sum of the lanes before it that are acted on (Table 13.19). -/
def Tile.scan (T : Tile) (m : Bool) (vd va : Fin 8) : Tile :=
  let act := T.lanes m
  T.putLanes vd T.range fun k => satWord ((act.filter (· < k)).foldl (fun s j => s + (T.lane va j).toInt) 0)

/-- VCMP: MK over the range (Table 13.19). -/
def Tile.compare (T : Tile) (x : Cond) (m : Bool) (va : Fin 8) (b : VOperand) : Tile :=
  let hit (k : Nat) := Cond.holds x (T.lane va k) (T.operand b k) && (!m || T.vmask.getLsbD k)
  { T with vmask := T.range.foldl (fun w k =>
      if hit k then w ||| (1#128 <<< k) else w &&& ~~~(1#128 <<< k)) T.vmask }

/-- The four words of a mask image (R421). -/
def Chip.maskRead (c : Chip) (t : Fin 2) (a : LAddr) : Nat → Chip × Except Exc Nat
  | 0 => (c, .ok 0)
  | n + 1 =>
    match c.maskRead t a n with
    | (c, .error x) => (c, .error x)
    | (c, .ok lo) =>
      match c.loopRead t a (4 * n) 4 with
      | (c, .error x) => (c, .error x)
      | (c, .ok w) => (c, .ok (lo + 2 ^ (32 * n) * w))

/-- MK ← f(MK, image). -/
def Chip.maskLoad (c : Chip) (t : Fin 2) (a : LAddr) (f : BitVec 128 → BitVec 128 → BitVec 128) : Chip :=
  c.tileRun t 2 .always fun c =>
    match c.maskRead t a 4 with
    | (c, .ok n) => (c.modTile t.val fun T => { T with vmask := f T.vmask (BitVec.ofNat 128 n) }, none)
    | (c, .error x) => (c, some x)

/-- VMST. -/
def Chip.maskStore (c : Chip) (t : Fin 2) (a : LAddr) : Chip :=
  c.tileRun t 2 .always fun c =>
    let m := (c.tile t.val).vmask.toNat
    laneRun (fun c i => c.loopWrite t a (4 * i) (m / 2 ^ (32 * i) % 2 ^ 32) 4) (List.range 4) c

/-- MK ← f(MK), in one step. -/
def Chip.maskOp (c : Chip) (t : Fin 2) (f : BitVec 128 → BitVec 128) : Chip :=
  c.tileRun t 1 .always fun c => (c.modTile t.val fun T => { T with vmask := f T.vmask }, none)

/-! Repeats, END and reserved words (R172, R415, R418, R424). -/

/-- RPT. -/
def Chip.repeat_ (c : Chip) (t : Fin 2) (n len : Nat) (gi : Fin 16) (inc : BitVec 8) : Chip :=
  let pc := (c.tile t.val).pc
  c.tileRun t 1 .always fun c =>
    (c.modTile t.val fun T => { T with rpt := { start := pc + 4, len := len, left := n, gi := gi, inc := inc } :: T.rpt },
     none)

/-- END: with no instruction before it the prescribed program runs (log 23). -/
def Chip.loopEnd (c : Chip) (t : Fin 2) : Chip :=
  if (c.tile t.val).stepped then
    let c1 := c.tileRun t 1 .always fun c => (c, none)
    c1.tileEnd t.val
  else c.tileEnd t.val

/-- A word that its engine's profile reserves: ILLEGAL on a strand, cause 6 on a loop engine; a word that means something
does nothing here. -/
def Chip.reservedWord (c : Chip) (e : Engine) (reserved : Bool) : Chip :=
  if !reserved then c else
  match e with
  | .strand n => c.strandRun n 1 (fun _ => 0) .always fun c => (c, some { code := 1 })
  | .tile t => c.tileRun t 0 .always fun c => (c, some { code := 1, cause := 6 })

end Sys2Proof.Machine
end

