-- ==== Sys2Proof/Machine/CmdSuper.lean ====
section
/-! DEFINITION. Meanings of the supervisor instructions (R408 to R415; Tables 13.10 to 13.14). -/

namespace Sys2Proof.Machine

/-- LDW: rd ← word (R408). -/
def execLdw (n : Fin 8) (g : Guard) (rd ra : Fin 16) (imm : BitVec 14) (s : State) : Host.Outcome State Fault Refusal :=
  s.run fun c => c.loadInto n g rd ra imm 4 word

/-- LDH: rd ← sext(halfword) (R408). -/
def execLdh (n : Fin 8) (g : Guard) (rd ra : Fin 16) (imm : BitVec 14) (s : State) : Host.Outcome State Fault Refusal :=
  s.run fun c => c.loadInto n g rd ra imm 2 fun v => wordI (signed 16 v)

/-- LDHU: rd ← zext(halfword) (R408). -/
def execLdhu (n : Fin 8) (g : Guard) (rd ra : Fin 16) (imm : BitVec 14)
    (s : State) : Host.Outcome State Fault Refusal := s.run fun c => c.loadInto n g rd ra imm 2 word

/-- LDB: rd ← sext(byte) (R408). -/
def execLdb (n : Fin 8) (g : Guard) (rd ra : Fin 16) (imm : BitVec 14) (s : State) : Host.Outcome State Fault Refusal :=
  s.run fun c => c.loadInto n g rd ra imm 1 fun v => wordI (signed 8 v)

/-- LDBU: rd ← zext(byte) (R408). -/
def execLdbu (n : Fin 8) (g : Guard) (rd ra : Fin 16) (imm : BitVec 14)
    (s : State) : Host.Outcome State Fault Refusal := s.run fun c => c.loadInto n g rd ra imm 1 word

/-- STW: word ← rs (R408). -/
def execStw (n : Fin 8) (g : Guard) (rs ra : Fin 16) (imm : BitVec 14) (s : State) : Host.Outcome State Fault Refusal :=
  s.run fun c => c.storeFrom n g rs ra imm 4

/-- STH: halfword ← rs[15:0] (R408). -/
def execSth (n : Fin 8) (g : Guard) (rs ra : Fin 16) (imm : BitVec 14) (s : State) : Host.Outcome State Fault Refusal :=
  s.run fun c => c.storeFrom n g rs ra imm 2

/-- STB: byte ← rs[7:0] (R408). -/
def execStb (n : Fin 8) (g : Guard) (rs ra : Fin 16) (imm : BitVec 14) (s : State) : Host.Outcome State Fault Refusal :=
  s.run fun c => c.storeFrom n g rs ra imm 1

/-- SWAPW: t ← word; word ← rb; rd ← t (R410). -/
def execSwapw (n : Fin 8) (g : Guard) (rd ra rb : Fin 16) (s : State) : Host.Outcome State Fault Refusal :=
  s.run fun c => c.atomic n g rd ra rb false

/-- CASW: t ← word; if t = rd then word ← rb; rd ← t (R410). -/
def execCasw (n : Fin 8) (g : Guard) (rd ra rb : Fin 16) (s : State) : Host.Outcome State Fault Refusal :=
  s.run fun c => c.atomic n g rd ra rb true

/-- B: a conditional branch (R411). -/
def execB (n : Fin 8) (c_ : BCond) (off : BitVec 15) (s : State) : Host.Outcome State Fault Refusal :=
  s.run fun c => c.branch n c_ off

/-- JAL: g15 ← PC + 4; PC ← PC + 4 × sext(off26) (R411). -/
def execJal (n : Fin 8) (off : BitVec 26) (s : State) : Host.Outcome State Fault Refusal :=
  s.run fun c => c.jumpLink n off

/-- JALR: rd ← PC + 4; PC ← ra + sext(imm14) (R411). -/
def execJalr (n : Fin 8) (rd ra : Fin 16) (imm : BitVec 14) (s : State) : Host.Outcome State Fault Refusal :=
  s.run fun c => c.jumpReg n rd ra imm

/-- SYSC: raises SYSC with its immediate (R412). -/
def execSysc (n : Fin 8) (imm : BitVec 10) (s : State) : Host.Outcome State Fault Refusal :=
  s.run fun c => c.strandRun n 2 (fun _ => 1) .always fun d => (d, some { code := 6, imm := some imm.toNat })

/-- BRK: raises BRK with its immediate (R412). -/
def execBrk (n : Fin 8) (imm : BitVec 10) (s : State) : Host.Outcome State Fault Refusal :=
  s.run fun c => c.strandRun n 2 (fun _ => 1) .always fun d => (d, some { code := 7, imm := some imm.toNat })

/-- ERET: PC ← c2; PRIV ← PPRIV; PPRIV ← 0 (R412). -/
def execEret (n : Fin 8) (s : State) : Host.Outcome State Fault Refusal :=
  s.run fun c => c.sysRun n 2 1 false fun d => d.modStrand n.val Strand.return

/-- CRD: rd ← c[cn]; at user level only for c0 and c1 (R412). -/
def execCrd (n : Fin 8) (rd cn : Fin 16) (s : State) : Host.Outcome State Fault Refusal :=
  s.run fun c => c.ctrlRun n cn (cn.val ≤ 1) fun d => d.gSet (.strand n) rd ((d.strand n.val).ctrl n.val cn.val)

/-- CWR: c[cn] ← ra, in its writable fields (R412). -/
def execCwr (n : Fin 8) (cn ra : Fin 16) (s : State) : Host.Outcome State Fault Refusal :=
  s.run fun c => c.ctrlRun n cn false fun d => d.modStrand n.val fun x => x.putCtrl cn.val (d.gGet (.strand n) ra)

/-- WFE: the strand waits to be woken (R433). -/
def execWfe (n : Fin 8) (s : State) : Host.Outcome State Fault Refusal :=
  s.run fun c => c.sysRun n 1 0 true fun d => d.waitEvent n.val

/-- YIELD: the strand gives up the rest of its quantum (R412). -/
def execYield (n : Fin 8) (s : State) : Host.Outcome State Fault Refusal :=
  s.run fun c => c.sysRun n 1 0 true fun d => if (d.nextReady n.val).isSome then d.issueFrom n.val else d

/-- FENCE: every earlier access has completed: in a model that executes in order, nothing more (R412). -/
def execFence (n : Fin 8) (s : State) : Host.Outcome State Fault Refusal :=
  s.run fun c => c.sysRun n 1 0 true fun d => d

end Sys2Proof.Machine
end

