-- ==== Sys2Proof/Machine/CmdTherm.lean ====
section
/-! DEFINITION. Meanings of the thermal commands (R352 to R362). -/

namespace Sys2Proof.Machine

/-- EXTT_WRITE: a write to EXTTk (R352). -/
def execExttWrite (m : Master) (k : Fin 128) (v : Word) (s : State) : Host.Outcome State Fault Refusal :=
  s.run fun c => c.command1 m (Reg.extt k) v

/-- EXTT_VALID_EXPIRY: an external temperature becomes stale (R352). -/
def execExttValidExpiry (k : Fin 128) (s : State) : Host.Outcome State Fault Refusal := s.run fun c => c.exttExpiry k

/-- BROKEN_READMIT: a write of ones to BROKENi (R353). -/
def execBrokenReadmit (m : Master) (i : Fin 4) (v : Word) (s : State) : Host.Outcome State Fault Refusal :=
  s.run fun c => c.command1 m (Reg.broken i) v

/-- PLIM_WRITE: a write to PpLIM (R358). -/
def execPlimWrite (m : Master) (p : Fin 4) (v : Word) (s : State) : Host.Outcome State Fault Refusal :=
  s.run fun c => c.command1 m (Reg.ppLim p) v

/-- DIE_CONVERSION: the two on-die sensors are converted (R362). -/
def execDieConversion (s0 s1 : Int) (s : State) : Host.Outcome State Fault Refusal :=
  s.run fun c => c.dieSensors s0 s1

/-- ROR_WINDOW_END: the rate-of-rise window ends (R361). -/
def execRorWindowEnd (s : State) : Host.Outcome State Fault Refusal := s.run fun c => c.rorWindowEnd

end Sys2Proof.Machine
end

