-- ==== Sys2Proof/Machine/CmdTile.lean ====
section
/-! DEFINITION. Meanings of the loop profile's instructions (R416 to R421; Tables 13.15 to 13.20). -/

namespace Sys2Proof.Machine

/-- LDQ: rd ← sext(data) (R416). -/
def execLdq (t : Fin 2) (g : Guard) (sz : Size) (rd : Fin 16) (a : LAddr)
    (s : State) : Host.Outcome State Fault Refusal :=
  s.run fun c => c.loopLoad t g (if a.l then 1 else 2) rd a sz.bytes fun v => wordI (signed (8 * sz.bytes) v)

/-- LDQ_U: rd ← zext(data) (R416). -/
def execLdqU (t : Fin 2) (g : Guard) (sz : Size) (rd : Fin 16) (a : LAddr)
    (s : State) : Host.Outcome State Fault Refusal := s.run fun c => c.loopLoad t g 1 rd a sz.bytes word

/-- ALD: a ← 64-bit data (R416). -/
def execAld (t : Fin 2) (g : Guard) (ad : Fin 4) (a : LAddr) (s : State) : Host.Outcome State Fault Refusal :=
  s.run fun c => c.accLoad t g ad a

/-- STQ: data ← rs (R416). -/
def execStq (t : Fin 2) (g : Guard) (sz : Size) (rs : Fin 16) (a : LAddr)
    (s : State) : Host.Outcome State Fault Refusal :=
  s.run fun c => c.tileRun t (if a.l then 1 else 2) g fun d => d.loopWrite t a 0 ((d.gGet (.tile t) rs).toNat % 256 ^ sz.bytes) sz.bytes

/-- AST: 64-bit data ← a (R416). -/
def execAst (t : Fin 2) (g : Guard) (as : Fin 4) (a : LAddr) (s : State) : Host.Outcome State Fault Refusal :=
  s.run fun c => c.accStore t g as a

/-- MAC: a ← a + shift(ra × rb, sh) (R417). -/
def execMac (t : Fin 2) (g : Guard) (ad : Fin 4) (ra rb : Fin 16) (sh : BitVec 6)
    (s : State) : Host.Outcome State Fault Refusal :=
  s.run fun c => c.accOp t g ad fun T => T.acc ad + T.product ra rb sh.toInt

/-- MSU: a ← a − shift(ra × rb, sh) (R417). -/
def execMsu (t : Fin 2) (g : Guard) (ad : Fin 4) (ra rb : Fin 16) (sh : BitVec 6)
    (s : State) : Host.Outcome State Fault Refusal :=
  s.run fun c => c.accOp t g ad fun T => T.acc ad - T.product ra rb sh.toInt

/-- MACX: as MAC, the shift from a register (R417). -/
def execMacx (t : Fin 2) (g : Guard) (ad : Fin 4) (ra rb gs : Fin 16) (s : State) : Host.Outcome State Fault Refusal :=
  s.run fun c => c.accOp t g ad fun T => T.acc ad + T.product ra rb (T.regShift gs)

/-- MSUX: as MSU, the shift from a register (R417). -/
def execMsux (t : Fin 2) (g : Guard) (ad : Fin 4) (ra rb gs : Fin 16) (s : State) : Host.Outcome State Fault Refusal :=
  s.run fun c => c.accOp t g ad fun T => T.acc ad - T.product ra rb (T.regShift gs)

/-- ACR: rd ← sat32(shift(a, sh)) (R417). -/
def execAcr (t : Fin 2) (g : Guard) (rd : Fin 16) (ad : Fin 4) (sh : BitVec 6)
    (s : State) : Host.Outcome State Fault Refusal :=
  s.run fun c => c.accOut t g 1 rd fun T => satWord (shiftI (T.acc ad) sh.toInt)

/-- ACW: a ← shift(sext(ra), sh) (R417). -/
def execAcw (t : Fin 2) (g : Guard) (ad : Fin 4) (ra : Fin 16) (sh : BitVec 6)
    (s : State) : Host.Outcome State Fault Refusal :=
  s.run fun c => c.accOp t g ad fun T => shiftI (gRead T.g ra).toInt sh.toInt

/-- ACADD: a ← a + shift(sext(ra), sh) (R417). -/
def execAcadd (t : Fin 2) (g : Guard) (ad : Fin 4) (ra : Fin 16) (sh : BitVec 6)
    (s : State) : Host.Outcome State Fault Refusal :=
  s.run fun c => c.accOp t g ad fun T => T.acc ad + shiftI (gRead T.g ra).toInt sh.toInt

/-- ACACC: a ← a + shift(ab, sh) (R417). -/
def execAcacc (t : Fin 2) (g : Guard) (ad ab : Fin 4) (sh : BitVec 6) (s : State) : Host.Outcome State Fault Refusal :=
  s.run fun c => c.accOp t g ad fun T => T.acc ad + shiftI (T.acc ab) sh.toInt

/-- ACHI: rd ← a[63:32] (R417). -/
def execAchi (t : Fin 2) (g : Guard) (rd : Fin 16) (ad : Fin 4) (s : State) : Host.Outcome State Fault Refusal :=
  s.run fun c => c.accOut t g 1 rd fun T => wordI (T.acc ad / 2 ^ 32)

/-- ACLO: rd ← a[31:0] (R417). -/
def execAclo (t : Fin 2) (g : Guard) (rd : Fin 16) (ad : Fin 4) (s : State) : Host.Outcome State Fault Refusal :=
  s.run fun c => c.accOut t g 1 rd fun T => wordI (T.acc ad)

/-- ACCLR: a ← 0 (R417). -/
def execAcclr (t : Fin 2) (g : Guard) (ad : Fin 4) (s : State) : Host.Outcome State Fault Refusal :=
  s.run fun c => c.accOp t g ad fun _ => 0

/-- ADIV: rd ← sat32(trunc(a / rb)) (R417). -/
def execAdiv (t : Fin 2) (g : Guard) (rd : Fin 16) (ad : Fin 4) (rb : Fin 16)
    (s : State) : Host.Outcome State Fault Refusal :=
  s.run fun c => c.accOut t g 8 rd fun T => accDiv (T.acc ad) (gRead T.g rb)

/-- RPT: the next len instructions run n times (R418). -/
def execRpt (t : Fin 2) (nm1 : BitVec 8) (lenm1 : BitVec 6) (gi : Fin 16) (inc : BitVec 8)
    (s : State) : Host.Outcome State Fault Refusal :=
  s.run fun c => c.repeat_ t (nm1.toNat + 1) (lenm1.toNat + 1) gi inc

/-- END: the tile's completion (R172). -/
def execEndLoop (t : Fin 2) (s : State) : Host.Outcome State Fault Refusal := s.run fun c => c.loopEnd t

/-- VRANGE: VR ← (G0, N) (R418). -/
def execVrange (t : Fin 2) (g0 nm1 : Fin 16) (s : State) : Host.Outcome State Fault Refusal :=
  s.run fun c => c.tileRun t 1 .always fun d => (d.modTile t.val fun T => { T with vg0 := g0.val, vn := nm1.val + 1 }, none)

/-- VLD: v[k] ← data, lane by lane (R419). -/
def execVld (t : Fin 2) (sz : Size) (sgn : Bool) (m : Bool) (st : Fin 6) (v : Fin 8) (a : LAddr)
    (s : State) : Host.Outcome State Fault Refusal := s.run fun c => c.vecLoad t sz sgn m st v a

/-- VST: data ← v[k], lane by lane (R419). -/
def execVst (t : Fin 2) (sz : Size) (m : Bool) (st : Fin 6) (v : Fin 8) (a : LAddr)
    (s : State) : Host.Outcome State Fault Refusal := s.run fun c => c.vecStore t sz m st v a

/-- VADD: sat32(va + b) (R420). -/
def execVadd (t : Fin 2) (m : Bool) (vd va : Fin 8) (b : VOperand) (s : State) : Host.Outcome State Fault Refusal :=
  s.run fun c => c.vecAlu t 1 m vd va b fun x y => satWord (x.toInt + y.toInt)

/-- VSUB: sat32(va − b) (R420). -/
def execVsub (t : Fin 2) (m : Bool) (vd va : Fin 8) (b : VOperand) (s : State) : Host.Outcome State Fault Refusal :=
  s.run fun c => c.vecAlu t 1 m vd va b fun x y => satWord (x.toInt - y.toInt)

/-- VMUL: sat32(shift(va × b, sh)) (R420). -/
def execVmul (t : Fin 2) (m : Bool) (vd va : Fin 8) (b : VOperand) (sh : BitVec 6)
    (s : State) : Host.Outcome State Fault Refusal :=
  s.run fun c => c.vecAlu t 1 m vd va b fun x y => satWord (shiftI (x.toInt * y.toInt) sh.toInt)

/-- VMIN: the lesser, signed (R420). -/
def execVmin (t : Fin 2) (m : Bool) (vd va : Fin 8) (b : VOperand) (s : State) : Host.Outcome State Fault Refusal :=
  s.run fun c => c.vecAlu t 1 m vd va b sMin

/-- VMAX: the greater, signed (R420). -/
def execVmax (t : Fin 2) (m : Bool) (vd va : Fin 8) (b : VOperand) (s : State) : Host.Outcome State Fault Refusal :=
  s.run fun c => c.vecAlu t 1 m vd va b sMax

/-- VAND: va AND b (R420). -/
def execVand (t : Fin 2) (m : Bool) (vd va : Fin 8) (b : VOperand) (s : State) : Host.Outcome State Fault Refusal :=
  s.run fun c => c.vecAlu t 1 m vd va b (· &&& ·)

/-- VOR: va OR b (R420). -/
def execVor (t : Fin 2) (m : Bool) (vd va : Fin 8) (b : VOperand) (s : State) : Host.Outcome State Fault Refusal :=
  s.run fun c => c.vecAlu t 1 m vd va b (· ||| ·)

/-- VXOR: va XOR b (R420). -/
def execVxor (t : Fin 2) (m : Bool) (vd va : Fin 8) (b : VOperand) (s : State) : Host.Outcome State Fault Refusal :=
  s.run fun c => c.vecAlu t 1 m vd va b (· ^^^ ·)

/-- VSH: sat32(shift(va, sh)) (R420). -/
def execVsh (t : Fin 2) (m : Bool) (vd va : Fin 8) (sh : BitVec 6) (s : State) : Host.Outcome State Fault Refusal :=
  s.run fun c => c.vecAlu t 1 m vd va (.vec va) fun x _ => satWord (shiftI x.toInt sh.toInt)

/-- VMULDIV: sat32(trunc(va × gb / gc)), 0 for divisor 0; four steps a group (R420). -/
def execVmuldiv (t : Fin 2) (m : Bool) (vd va : Fin 8) (gb gc : Fin 16)
    (s : State) : Host.Outcome State Fault Refusal :=
  s.run fun c => c.vecOp t 4 fun T => T.putLanes vd (T.lanes m) fun k => mulDiv (T.lane va k) (gRead T.g gb) (gRead T.g gc)

/-- VSEL: MK[k] ? va : b (R420). -/
def execVsel (t : Fin 2) (vd va : Fin 8) (b : VOperand) (s : State) : Host.Outcome State Fault Refusal :=
  s.run fun c => c.vecOp t 1 fun T => T.putLanes vd T.range fun k => if T.vmask.getLsbD k then T.lane va k else T.operand b k

/-- VIDX: the lane's slot number (R420). -/
def execVidx (t : Fin 2) (m : Bool) (vd : Fin 8) (s : State) : Host.Outcome State Fault Refusal :=
  s.run fun c => c.vecOp t 1 fun T => T.putLanes vd (T.lanes m) word

/-- VSCAN: the sum of the acted-on lanes before each lane; two steps a group (R420). -/
def execVscan (t : Fin 2) (m : Bool) (vd va : Fin 8) (s : State) : Host.Outcome State Fault Refusal :=
  s.run fun c => c.vecOp t 2 fun T => T.scan m vd va

/-- VCMP: MK[k] ← cond(va, b), and with m = 1 AND MK[k] (R420). -/
def execVcmp (t : Fin 2) (c_ : Cond) (m : Bool) (va : Fin 8) (b : VOperand)
    (s : State) : Host.Outcome State Fault Refusal := s.run fun c => c.vecOp t 1 fun T => T.compare c_ m va b

/-- VSUM: a ← a + Σ shift(va, sh) (R420). -/
def execVsum (t : Fin 2) (m : Bool) (ad : Fin 4) (va : Fin 8) (sh : BitVec 6)
    (s : State) : Host.Outcome State Fault Refusal :=
  s.run fun c => c.vecAcc t m ad fun T s k => s + shiftI (T.lane va k).toInt sh.toInt

/-- VCNT: a ← a + the number of lanes acted on (R420). -/
def execVcnt (t : Fin 2) (m : Bool) (ad : Fin 4) (s : State) : Host.Outcome State Fault Refusal :=
  s.run fun c => c.vecAcc t m ad fun _ s _ => s + 1

/-- VMAXR: a ← the greater of a and every va (R420). -/
def execVmaxr (t : Fin 2) (m : Bool) (ad : Fin 4) (va : Fin 8) (s : State) : Host.Outcome State Fault Refusal :=
  s.run fun c => c.vecAcc t m ad fun T s k => if s < (T.lane va k).toInt then (T.lane va k).toInt else s

/-- VMINR: a ← the lesser of a and every va (R420). -/
def execVminr (t : Fin 2) (m : Bool) (ad : Fin 4) (va : Fin 8) (s : State) : Host.Outcome State Fault Refusal :=
  s.run fun c => c.vecAcc t m ad fun T s k => if (T.lane va k).toInt < s then (T.lane va k).toInt else s

/-- VGET: gb ← va[gi mod 128], whatever the range (R420). -/
def execVget (t : Fin 2) (gb : Fin 16) (va : Fin 8) (gi : Fin 16) (s : State) : Host.Outcome State Fault Refusal :=
  s.run fun c => c.accOut t .always 1 gb fun T => T.lane va ((gRead T.g gi).toNat % 128)

/-- VPUT: vd[gi mod 128] ← gb, whatever the range (R420). -/
def execVput (t : Fin 2) (vd : Fin 8) (gi gb : Fin 16) (s : State) : Host.Outcome State Fault Refusal :=
  s.run fun c => c.tileRun t 1 .always fun d => (d.modTile t.val fun T => T.putLane vd ((gRead T.g gi).toNat % 128) (gRead T.g gb), none)

/-- VMLD: MK ← image (R421). -/
def execVmld (t : Fin 2) (a : LAddr) (s : State) : Host.Outcome State Fault Refusal :=
  s.run fun c => c.maskLoad t a fun _ x => x

/-- VMST: image ← MK (R421). -/
def execVmst (t : Fin 2) (a : LAddr) (s : State) : Host.Outcome State Fault Refusal := s.run fun c => c.maskStore t a

/-- VMAND: MK ← MK AND image (R421). -/
def execVmand (t : Fin 2) (a : LAddr) (s : State) : Host.Outcome State Fault Refusal :=
  s.run fun c => c.maskLoad t a (· &&& ·)

/-- VMOR: MK ← MK OR image (R421). -/
def execVmor (t : Fin 2) (a : LAddr) (s : State) : Host.Outcome State Fault Refusal :=
  s.run fun c => c.maskLoad t a (· ||| ·)

/-- VMNOT: MK ← NOT MK (R421). -/
def execVmnot (t : Fin 2) (s : State) : Host.Outcome State Fault Refusal := s.run fun c => c.maskOp t (~~~ ·)

/-- VMALL: MK ← all ones (R421). -/
def execVmall (t : Fin 2) (s : State) : Host.Outcome State Fault Refusal := s.run fun c => c.maskOp t fun _ => -1

/-- VMNONE: MK ← all zeros (R421). -/
def execVmnone (t : Fin 2) (s : State) : Host.Outcome State Fault Refusal := s.run fun c => c.maskOp t fun _ => 0

end Sys2Proof.Machine
end

