-- ==== Sys2Proof/Machine/CmdTwb.lean ====
section
/-! DEFINITION. Meanings of the two-wire buses' commands besides PMBus (R516 to R536). -/

namespace Sys2Proof.Machine

/-- ALERT_RESPONSE: a read of the alert response address (R528). -/
def execAlertResponse (won : Bool) (raisedMeanwhile : Bool) (s : State) : Host.Outcome State Fault Refusal :=
  s.run fun c => c.alertResponse won raisedMeanwhile

/-- REQUEST_RESPONSE: the host answers an in-band request (R531). -/
def execRequestResponse (won : Bool) (raisedMeanwhile : Bool) (s : State) : Host.Outcome State Fault Refusal :=
  s.run fun c => c.requestResponse won raisedMeanwhile

/-- SLEEP: the bus has been idle for the sleep time (R516). -/
def execSleep (s : State) : Host.Outcome State Fault Refusal := s.run fun c => c.twbSleep

/-- WAKE_NACK: a start while asleep: the address is not acknowledged (R516). -/
def execWakeNack (s : State) : Host.Outcome State Fault Refusal := s.run fun c => c.wakeNack

/-- SCL_TIMEOUT: SCL is held low past the limit (R517). -/
def execSclTimeout (s : State) : Host.Outcome State Fault Refusal := s.run fun c => c.sclTimeout

/-- SDA_TIMEOUT: SDA is held low past the limit (R517). -/
def execSdaTimeout (s : State) : Host.Outcome State Fault Refusal := s.run fun c => c.sdaTimeout

/-- IN_BAND_REQUEST_PULSE: the next in-band request pulse (R530). -/
def execInBandRequestPulse (collides : Bool) (s : State) : Host.Outcome State Fault Refusal :=
  s.run fun c => c.requestPulse collides

/-- HCMDPOP: a write to HCMDPOP (R521). -/
def execHcmdpop (m : Master) (v : Word) (s : State) : Host.Outcome State Fault Refusal :=
  s.run fun c => c.command1 m Reg.hcmdpop v

/-- TLMRDY: a write to NOTICE with TLMRDY (R529). -/
def execTlmrdy (m : Master) (v : Word) (s : State) : Host.Outcome State Fault Refusal :=
  s.run fun c => c.command1 m Reg.notice v

/-- CONTROLLER_GO: a write to CTLCTL; `a` is how the first attempt goes (R532). -/
def execControllerGo (m : Master) (v : Word) (a : Attempt) (s : State) : Host.Outcome State Fault Refusal :=
  s.run fun c => c.accessBy m Reg.ctlctl fun d => d.writeCtlctl v a

/-- BACKOFF_EXPIRY: the back-off ends and the transaction is tried again (R533). -/
def execBackoffExpiry (a : Attempt) (s : State) : Host.Outcome State Fault Refusal := s.run fun c => c.backoffExpiry a

/-- CONTROLLER_DONE: the controller transaction ends (R532). -/
def execControllerDone (nacked : Bool) (s : State) : Host.Outcome State Fault Refusal :=
  s.run fun c => c.controllerDone nacked

/-- LOCAL_TRANSFER_GO: a write to LXFER; `sda` is what TWB1 finds on SDA (R534). -/
def execLocalTransferGo (m : Master) (v : Word) (sda : LocalSda) (s : State) : Host.Outcome State Fault Refusal :=
  s.run fun c => c.accessBy m Reg.lxfer fun d => d.writeLxfer v sda

/-- LOCAL_TRANSFER_DONE: the local transfer ends (R536). -/
def execLocalTransferDone (nacked : Bool) (bytes : List Byte) (pec : Byte)
    (s : State) : Host.Outcome State Fault Refusal := s.run fun c => c.localDone nacked bytes pec

/-- LOCAL_SCL_TIMEOUT: a local target holds SCL low past the limit (R536). -/
def execLocalSclTimeout (s : State) : Host.Outcome State Fault Refusal := s.run fun c => c.localTimeout

end Sys2Proof.Machine
end

