-- ==== Sys2Proof/Machine/CmdUpd.lean ====
section
/-! DEFINITION. Meanings of the update, boot-control and fuse commands (R546 to R562). -/

namespace Sys2Proof.Machine

/-- BEGIN: a write to UPDCMD with BEGIN (R546). -/
def execBegin (m : Master) (v : Word) (s : State) : Host.Outcome State Fault Refusal :=
  s.run fun c => c.command1 m Reg.updcmd v

/-- ACTIVATE: a write to UPDCMD with ACTIVATE (R551). -/
def execActivate (m : Master) (v : Word) (s : State) : Host.Outcome State Fault Refusal :=
  s.run fun c => c.command1 m Reg.updcmd v

/-- ABORT: a write to UPDCMD with ABORT (R546). -/
def execAbort (m : Master) (v : Word) (s : State) : Host.Outcome State Fault Refusal :=
  s.run fun c => c.command1 m Reg.updcmd v

/-- PLANSGO: a write to UPDCMD with PLANSGO (R549). -/
def execPlansgo (m : Master) (v : Word) (s : State) : Host.Outcome State Fault Refusal :=
  s.run fun c => c.command1 m Reg.updcmd v

/-- CONFIRM: a write to UPDCMD with CONFIRM (R554). -/
def execConfirm (m : Master) (v : Word) (s : State) : Host.Outcome State Fault Refusal :=
  s.run fun c => c.command1 m Reg.updcmd v

/-- RCVREQ: a write to UPDCMD with RCVREQ (R556). -/
def execRcvreq (m : Master) (v : Word) (s : State) : Host.Outcome State Fault Refusal :=
  s.run fun c => c.command1 m Reg.updcmd v

/-- MIGDONE: a write to UPDCMD with MIGDONE (R558). -/
def execMigdone (m : Master) (v : Word) (s : State) : Host.Outcome State Fault Refusal :=
  s.run fun c => c.command1 m Reg.updcmd v

/-- TRIALARM: a write to UPDCMD with TRIALARM (R553). -/
def execTrialarm (m : Master) (v : Word) (s : State) : Host.Outcome State Fault Refusal :=
  s.run fun c => c.command1 m Reg.updcmd v

/-- UPDDATA_WRITE: a write to UPDDATA: four bytes of the image (R562). -/
def execUpddataWrite (m : Master) (v : Word) (s : State) : Host.Outcome State Fault Refusal :=
  s.run fun c => c.command1 m Reg.upddata v

/-- HEADER_TEST_DONE: the header test ends (R547). -/
def execHeaderTestDone (s : State) : Host.Outcome State Fault Refusal := s.run fun c => c.headerTestDone

/-- UPDATE_ERASE_DONE: the erase before an update ends (R548). -/
def execUpdateEraseDone (s : State) : Host.Outcome State Fault Refusal := s.run fun c => c.updateEraseDone

/-- END_CHECK_DONE: the end check of an image ends (R550). -/
def execEndCheckDone (s : State) : Host.Outcome State Fault Refusal := s.run fun c => c.endCheckDone

/-- UPDTIME_EXPIRY: the update's time limit ends (R546). -/
def execUpdtimeExpiry (s : State) : Host.Outcome State Fault Refusal := s.run fun c => c.updtimeExpiry

/-- TRIAL_EXPIRY: the trial's time limit ends (R554). -/
def execTrialExpiry (s : State) : Host.Outcome State Fault Refusal := s.run fun c => c.trialExpiry

/-- SOCMEAN_STALE: SOCMEAN has not been written for its time (R562). -/
def execSocmeanStale (s : State) : Host.Outcome State Fault Refusal := s.run fun c => c.socmeanStale

/-- PROG: a write to FCMD with PROG (R560). -/
def execProg (m : Master) (v : Word) (s : State) : Host.Outcome State Fault Refusal :=
  s.run fun c => c.command1 m Reg.fcmd v

/-- FUSE_PROGRAM_DONE: the fuse programming ends; `unblown`: the bits that did not take (R560). -/
def execFuseProgramDone (unblown : Word) (s : State) : Host.Outcome State Fault Refusal :=
  s.run fun c => c.fuseProgDone unblown

end Sys2Proof.Machine
end

