-- ==== Sys2Proof/Machine/CmdZis.lean ====
section
/-! DEFINITION. Meanings of the ZIS instructions common to strands and loop engines (R404 to R407; Tables 13.6 to 13.9). -/

namespace Sys2Proof.Machine

/-- ADD: rd ← wrap(ra + rb) (R404). -/
def execAdd (e : Engine) (g : Guard) (rd ra rb : Fin 16) (s : State) : Host.Outcome State Fault Refusal :=
  s.run fun c => c.alu e 1 g rd ra rb (· + ·)

/-- SUB: rd ← wrap(ra − rb) (R404). -/
def execSub (e : Engine) (g : Guard) (rd ra rb : Fin 16) (s : State) : Host.Outcome State Fault Refusal :=
  s.run fun c => c.alu e 1 g rd ra rb (· - ·)

/-- AND: rd ← ra AND rb (R404). -/
def execAnd (e : Engine) (g : Guard) (rd ra rb : Fin 16) (s : State) : Host.Outcome State Fault Refusal :=
  s.run fun c => c.alu e 1 g rd ra rb (· &&& ·)

/-- OR: rd ← ra OR rb (R404). -/
def execOr (e : Engine) (g : Guard) (rd ra rb : Fin 16) (s : State) : Host.Outcome State Fault Refusal :=
  s.run fun c => c.alu e 1 g rd ra rb (· ||| ·)

/-- XOR: rd ← ra XOR rb (R404). -/
def execXor (e : Engine) (g : Guard) (rd ra rb : Fin 16) (s : State) : Host.Outcome State Fault Refusal :=
  s.run fun c => c.alu e 1 g rd ra rb (· ^^^ ·)

/-- SHL: rd ← ra << rb[4:0] (R404). -/
def execShl (e : Engine) (g : Guard) (rd ra rb : Fin 16) (s : State) : Host.Outcome State Fault Refusal :=
  s.run fun c => c.alu e 1 g rd ra rb fun a b => a <<< (b.toNat % 32)

/-- SHR: rd ← ra >> rb[4:0], zeros in (R404). -/
def execShr (e : Engine) (g : Guard) (rd ra rb : Fin 16) (s : State) : Host.Outcome State Fault Refusal :=
  s.run fun c => c.alu e 1 g rd ra rb fun a b => a >>> (b.toNat % 32)

/-- SRA: rd ← ra >> rb[4:0], sign in (R404). -/
def execSra (e : Engine) (g : Guard) (rd ra rb : Fin 16) (s : State) : Host.Outcome State Fault Refusal :=
  s.run fun c => c.alu e 1 g rd ra rb fun a b => sraW a (b.toNat % 32)

/-- MIN: the lesser, signed (R404). -/
def execMin (e : Engine) (g : Guard) (rd ra rb : Fin 16) (s : State) : Host.Outcome State Fault Refusal :=
  s.run fun c => c.alu e 1 g rd ra rb sMin

/-- MAX: the greater, signed (R404). -/
def execMax (e : Engine) (g : Guard) (rd ra rb : Fin 16) (s : State) : Host.Outcome State Fault Refusal :=
  s.run fun c => c.alu e 1 g rd ra rb sMax

/-- MINU: the lesser, unsigned (R404). -/
def execMinu (e : Engine) (g : Guard) (rd ra rb : Fin 16) (s : State) : Host.Outcome State Fault Refusal :=
  s.run fun c => c.alu e 1 g rd ra rb uMin

/-- MAXU: the greater, unsigned (R404). -/
def execMaxu (e : Engine) (g : Guard) (rd ra rb : Fin 16) (s : State) : Host.Outcome State Fault Refusal :=
  s.run fun c => c.alu e 1 g rd ra rb uMax

/-- MUL: rd ← wrap(ra × rb) (R405). -/
def execMul (e : Engine) (g : Guard) (rd ra rb : Fin 16) (s : State) : Host.Outcome State Fault Refusal :=
  s.run fun c => c.alu e 1 g rd ra rb (· * ·)

/-- MULH: bits [63:32] of the signed product (R405). -/
def execMulh (e : Engine) (g : Guard) (rd ra rb : Fin 16) (s : State) : Host.Outcome State Fault Refusal :=
  s.run fun c => c.alu e 1 g rd ra rb fun a b => wordI (a.toInt * b.toInt / 2 ^ 32)

/-- MULHU: bits [63:32] of the unsigned product (R405). -/
def execMulhu (e : Engine) (g : Guard) (rd ra rb : Fin 16) (s : State) : Host.Outcome State Fault Refusal :=
  s.run fun c => c.alu e 1 g rd ra rb fun a b => word (a.toNat * b.toNat / 2 ^ 32)

/-- DIV: the signed quotient (R405). -/
def execDiv (e : Engine) (g : Guard) (rd ra rb : Fin 16) (s : State) : Host.Outcome State Fault Refusal :=
  s.run fun c => c.alu e 8 g rd ra rb divS

/-- DIVU: the unsigned quotient (R405). -/
def execDivu (e : Engine) (g : Guard) (rd ra rb : Fin 16) (s : State) : Host.Outcome State Fault Refusal :=
  s.run fun c => c.alu e 8 g rd ra rb divU

/-- REM: the signed remainder (R405). -/
def execRem (e : Engine) (g : Guard) (rd ra rb : Fin 16) (s : State) : Host.Outcome State Fault Refusal :=
  s.run fun c => c.alu e 8 g rd ra rb remS

/-- REMU: the unsigned remainder (R405). -/
def execRemu (e : Engine) (g : Guard) (rd ra rb : Fin 16) (s : State) : Host.Outcome State Fault Refusal :=
  s.run fun c => c.alu e 8 g rd ra rb remU

/-- QADD: sat32(ra + rb) (R405). -/
def execQadd (e : Engine) (g : Guard) (rd ra rb : Fin 16) (s : State) : Host.Outcome State Fault Refusal :=
  s.run fun c => c.alu e 1 g rd ra rb fun a b => satWord (a.toInt + b.toInt)

/-- QSUB: sat32(ra − rb) (R405). -/
def execQsub (e : Engine) (g : Guard) (rd ra rb : Fin 16) (s : State) : Host.Outcome State Fault Refusal :=
  s.run fun c => c.alu e 1 g rd ra rb fun a b => satWord (a.toInt - b.toInt)

/-- QMUL: sat32(shift(ra × rb, sh)) (R405). -/
def execQmul (e : Engine) (g : Guard) (rd ra rb : Fin 16) (sh : BitVec 6)
    (s : State) : Host.Outcome State Fault Refusal :=
  s.run fun c => c.alu e 1 g rd ra rb fun a b => satWord (shiftI (a.toInt * b.toInt) sh.toInt)

/-- QABS: sat32(|ra|) (R405). -/
def execQabs (e : Engine) (g : Guard) (rd ra : Fin 16) (s : State) : Host.Outcome State Fault Refusal :=
  s.run fun c => c.alui e g rd ra fun a => satWord a.toInt.natAbs

/-- QNEG: sat32(−ra) (R405). -/
def execQneg (e : Engine) (g : Guard) (rd ra : Fin 16) (s : State) : Host.Outcome State Fault Refusal :=
  s.run fun c => c.alui e g rd ra fun a => satWord (-a.toInt)

/-- ADDI: rd ← wrap(ra + sext(imm14)) (R406). -/
def execAddi (e : Engine) (g : Guard) (rd ra : Fin 16) (imm : BitVec 14)
    (s : State) : Host.Outcome State Fault Refusal := s.run fun c => c.alui e g rd ra (· + sext imm)

/-- ANDI: rd ← ra AND zext(imm14) (R406). -/
def execAndi (e : Engine) (g : Guard) (rd ra : Fin 16) (imm : BitVec 14)
    (s : State) : Host.Outcome State Fault Refusal := s.run fun c => c.alui e g rd ra (· &&& zext imm)

/-- ORI: rd ← ra OR zext(imm14) (R406). -/
def execOri (e : Engine) (g : Guard) (rd ra : Fin 16) (imm : BitVec 14)
    (s : State) : Host.Outcome State Fault Refusal := s.run fun c => c.alui e g rd ra (· ||| zext imm)

/-- XORI: rd ← ra XOR zext(imm14) (R406). -/
def execXori (e : Engine) (g : Guard) (rd ra : Fin 16) (imm : BitVec 14)
    (s : State) : Host.Outcome State Fault Refusal := s.run fun c => c.alui e g rd ra (· ^^^ zext imm)

/-- SHLI: rd ← ra << imm14[4:0] (R406). -/
def execShli (e : Engine) (g : Guard) (rd ra : Fin 16) (sh : BitVec 5) (s : State) : Host.Outcome State Fault Refusal :=
  s.run fun c => c.alui e g rd ra (· <<< sh.toNat)

/-- SHRI: logical shift right (R406). -/
def execShri (e : Engine) (g : Guard) (rd ra : Fin 16) (sh : BitVec 5) (s : State) : Host.Outcome State Fault Refusal :=
  s.run fun c => c.alui e g rd ra (· >>> sh.toNat)

/-- SRAI: arithmetic shift right (R406). -/
def execSrai (e : Engine) (g : Guard) (rd ra : Fin 16) (sh : BitVec 5) (s : State) : Host.Outcome State Fault Refusal :=
  s.run fun c => c.alui e g rd ra (sraW · sh.toNat)

/-- MINI: the lesser of ra and sext(imm14), signed (R406). -/
def execMini (e : Engine) (g : Guard) (rd ra : Fin 16) (imm : BitVec 14)
    (s : State) : Host.Outcome State Fault Refusal := s.run fun c => c.alui e g rd ra (sMin · (sext imm))

/-- MAXI: the greater of ra and sext(imm14), signed (R406). -/
def execMaxi (e : Engine) (g : Guard) (rd ra : Fin 16) (imm : BitVec 14)
    (s : State) : Host.Outcome State Fault Refusal := s.run fun c => c.alui e g rd ra (sMax · (sext imm))

/-- LUI: rd ← imm18 << 14 (R406). -/
def execLui (e : Engine) (g : Guard) (rd : Fin 16) (imm : BitVec 18) (s : State) : Host.Outcome State Fault Refusal :=
  s.run fun c => c.alui e g rd 0 fun _ => zext imm <<< 14

/-- CMP: p[pd] ← cond(ra, rb) (R407). -/
def execCmp (e : Engine) (g : Guard) (c_ : Cond) (pd : Fin 4) (ra rb : Fin 16)
    (s : State) : Host.Outcome State Fault Refusal :=
  s.run fun c => c.engRun e 1 g fun d => d.pSet e pd (Cond.holds c_ (d.gGet e ra) (d.gGet e rb))

/-- CMPI: p[pd] ← cond(ra, sext(imm13)) (R407). -/
def execCmpi (e : Engine) (g : Guard) (c_ : Cond) (pd : Fin 4) (ra : Fin 16) (imm : BitVec 13)
    (s : State) : Host.Outcome State Fault Refusal :=
  s.run fun c => c.engRun e 1 g fun d => d.pSet e pd (Cond.holds c_ (d.gGet e ra) (sext imm))

/-- PAND: p[pd] ← p[ps] AND p[pt] (R407). -/
def execPand (e : Engine) (g : Guard) (pd ps pt : Fin 4) (s : State) : Host.Outcome State Fault Refusal :=
  s.run fun c => c.plogic e g pd ps pt (· && ·)

/-- POR: p[pd] ← p[ps] OR p[pt] (R407). -/
def execPor (e : Engine) (g : Guard) (pd ps pt : Fin 4) (s : State) : Host.Outcome State Fault Refusal :=
  s.run fun c => c.plogic e g pd ps pt (· || ·)

/-- PXOR: p[pd] ← p[ps] XOR p[pt] (R407). -/
def execPxor (e : Engine) (g : Guard) (pd ps pt : Fin 4) (s : State) : Host.Outcome State Fault Refusal :=
  s.run fun c => c.plogic e g pd ps pt (· != ·)

/-- PANDN: p[pd] ← p[ps] AND NOT p[pt] (R407). -/
def execPandn (e : Engine) (g : Guard) (pd ps pt : Fin 4) (s : State) : Host.Outcome State Fault Refusal :=
  s.run fun c => c.plogic e g pd ps pt fun a b => a && !b

/-- RESERVED_ENCODING: a word its engine's profile reserves (R415, R424). -/
def execReservedEncoding (e : Engine) (w : Word) (s : State) : Host.Outcome State Fault Refusal :=
  s.run fun c => c.reservedWord e (zisDecode e w).isNone

end Sys2Proof.Machine
end

