-- ==== Sys2Proof/Machine/Dispatch.lean ====
section
/-! DEFINITION. One arm per command: the one call of its meaning. -/

namespace Sys2Proof.Machine

/-- The effect of a command on everything but the queue. -/
def exec (i : Instr) (s : State) : Host.Outcome State Fault Refusal :=
  match i with
  | .registerWrite m addr size v => Sys2Proof.Machine.execRegisterWrite m addr size v s
  | .rcRead m addr => Sys2Proof.Machine.execRcRead m addr s
  | .lowHalfRead m addr => Sys2Proof.Machine.execLowHalfRead m addr s
  | .crcInit m v => Sys2Proof.Machine.execCrcInit m v s
  | .crcData m v => Sys2Proof.Machine.execCrcData m v s
  | .crcByte m v => Sys2Proof.Machine.execCrcByte m v s
  | .crcStateLoad m v => Sys2Proof.Machine.execCrcStateLoad m v s
  | .lock m r v => Sys2Proof.Machine.execLock m r v s
  | .vertex => Sys2Proof.Machine.execVertex s
  | .uplinkStart => Sys2Proof.Machine.execUplinkStart s
  | .uplinkDeadline => Sys2Proof.Machine.execUplinkDeadline s
  | .chord => Sys2Proof.Machine.execChord s
  | .pllLockLoss => Sys2Proof.Machine.execPllLockLoss s
  | .pllLockHeld => Sys2Proof.Machine.execPllLockHeld s
  | .tsyncEdge => Sys2Proof.Machine.execTsyncEdge s
  | .ppsTimeout => Sys2Proof.Machine.execPpsTimeout s
  | .commit m v => Sys2Proof.Machine.execCommit m v s
  | .aonPowerOn mv => Sys2Proof.Machine.execAonPowerOn mv s
  | .aonPowerOff mv => Sys2Proof.Machine.execAonPowerOff mv s
  | .brownOut mv => Sys2Proof.Machine.execBrownOut mv s
  | .vinLow mv => Sys2Proof.Machine.execVinLow mv s
  | .vinLowRecovery mv => Sys2Proof.Machine.execVinLowRecovery mv s
  | .powerFail mv => Sys2Proof.Machine.execPowerFail mv s
  | .powerFailRecovery mv => Sys2Proof.Machine.execPowerFailRecovery mv s
  | .vinWarning low mv => Sys2Proof.Machine.execVinWarning low mv s
  | .vioGoodChange good => Sys2Proof.Machine.execVioGoodChange good s
  | .resetPin => Sys2Proof.Machine.execResetPin s
  | .swrst m v => Sys2Proof.Machine.execSwrst m v s
  | .watchdogExpiry => Sys2Proof.Machine.execWatchdogExpiry s
  | .wdtkick m v => Sys2Proof.Machine.execWdtkick m v s
  | .drst m v => Sys2Proof.Machine.execDrst m v s
  | .pwrctlWrite m v => Sys2Proof.Machine.execPwrctlWrite m v s
  | .domainPowered d => Sys2Proof.Machine.execDomainPowered d s
  | .fuseLoadDone differ => Sys2Proof.Machine.execFuseLoadDone differ s
  | .powerAndLockDone pllLocked => Sys2Proof.Machine.execPowerAndLockDone pllLocked s
  | .bootRomCheckDone => Sys2Proof.Machine.execBootRomCheckDone s
  | .loaderDone => Sys2Proof.Machine.execLoaderDone s
  | .warmRestartDone => Sys2Proof.Machine.execWarmRestartDone s
  | .bootdone m v => Sys2Proof.Machine.execBootdone m v s
  | .shipctl m v => Sys2Proof.Machine.execShipctl m v s
  | .wake => Sys2Proof.Machine.execWake s
  | .fltclr m v => Sys2Proof.Machine.execFltclr m v s
  | .hubEnable m v => Sys2Proof.Machine.execHubEnable m v s
  | .uplinkFrameArrival c e bytes => Sys2Proof.Machine.execUplinkFrameArrival c e bytes s
  | .receiverLockChange c e locked => Sys2Proof.Machine.execReceiverLockChange c e locked s
  | .markArrival c ui => Sys2Proof.Machine.execMarkArrival c ui s
  | .rngerr c => Sys2Proof.Machine.execRngerr c s
  | .mailboxGo m v => Sys2Proof.Machine.execMailboxGo m v s
  | .slotcfgWrite m k v => Sys2Proof.Machine.execSlotcfgWrite m k v s
  | .chctlWrite m c v => Sys2Proof.Machine.execChctlWrite m c v s
  | .unfold m c v => Sys2Proof.Machine.execUnfold m c v s
  | .forcedFold m c v => Sys2Proof.Machine.execForcedFold m c v s
  | .holdreqWrite m v => Sys2Proof.Machine.execHoldreqWrite m v s
  | .loopEnable m n v => Sys2Proof.Machine.execLoopEnable m n v s
  | .loopDisable m n v => Sys2Proof.Machine.execLoopDisable m n v s
  | .lncfgWrite m n v => Sys2Proof.Machine.execLncfgWrite m n v s
  | .coefficientCommit m v => Sys2Proof.Machine.execCoefficientCommit m v s
  | .injectionStart m v => Sys2Proof.Machine.execInjectionStart m v s
  | .injectionStop m v => Sys2Proof.Machine.execInjectionStop m v s
  | .captureStart m v => Sys2Proof.Machine.execCaptureStart m v s
  | .swap m v => Sys2Proof.Machine.execSwap m v s
  | .resume m v => Sys2Proof.Machine.execResume m v s
  | .arm m t v => Sys2Proof.Machine.execArm m t v s
  | .loadCheckDone t => Sys2Proof.Machine.execLoadCheckDone t s
  | .mirrorCheckDone => Sys2Proof.Machine.execMirrorCheckDone s
  | .tileSelfDiagnosisFailure t cause => Sys2Proof.Machine.execTileSelfDiagnosisFailure t cause s
  | .tileWatchdog t => Sys2Proof.Machine.execTileWatchdog t s
  | .canaryComplete ticks => Sys2Proof.Machine.execCanaryComplete ticks s
  | .evaluationWindowEnd => Sys2Proof.Machine.execEvaluationWindowEnd s
  | .vcoreSettled => Sys2Proof.Machine.execVcoreSettled s
  | .inhibitExpiry => Sys2Proof.Machine.execInhibitExpiry s
  | .dseedWrite m v => Sys2Proof.Machine.execDseedWrite m v s
  | .dtotWrite m n v => Sys2Proof.Machine.execDtotWrite m n v s
  | .rotationDue => Sys2Proof.Machine.execRotationDue s
  | .shdlyExpiry n => Sys2Proof.Machine.execShdlyExpiry n s
  | .qAdjustCommit m v => Sys2Proof.Machine.execQAdjustCommit m v s
  | .evraise m v => Sys2Proof.Machine.execEvraise m v s
  | .fechipWrite m v => Sys2Proof.Machine.execFechipWrite m v s
  | .backEndChipUpdate => Sys2Proof.Machine.execBackEndChipUpdate s
  | .exttWrite m k v => Sys2Proof.Machine.execExttWrite m k v s
  | .exttValidExpiry k => Sys2Proof.Machine.execExttValidExpiry k s
  | .brokenReadmit m ix v => Sys2Proof.Machine.execBrokenReadmit m ix v s
  | .plimWrite m p v => Sys2Proof.Machine.execPlimWrite m p v s
  | .dieConversion s0 s1 => Sys2Proof.Machine.execDieConversion s0 s1 s
  | .rorWindowEnd => Sys2Proof.Machine.execRorWindowEnd s
  | .runstart m v => Sys2Proof.Machine.execRunstart m v s
  | .runshut m v => Sys2Proof.Machine.execRunshut m v s
  | .stop m v => Sys2Proof.Machine.execStop m v s
  | .railcmd m v => Sys2Proof.Machine.execRailcmd m v s
  | .railclr m v => Sys2Proof.Machine.execRailclr m v s
  | .syncset m v => Sys2Proof.Machine.execSyncset m v s
  | .stepMemoryWrite m ix v => Sys2Proof.Machine.execStepMemoryWrite m ix v s
  | .seqctlWrite m v => Sys2Proof.Machine.execSeqctlWrite m v s
  | .pgQualified r => Sys2Proof.Machine.execPgQualified r s
  | .riseWindowExpiry r => Sys2Proof.Machine.execRiseWindowExpiry r s
  | .faultTimerEnd r => Sys2Proof.Machine.execFaultTimerEnd r s
  | .retryoffExpiry r => Sys2Proof.Machine.execRetryoffExpiry r s
  | .discharged r => Sys2Proof.Machine.execDischarged r s
  | .dchtmoExpiry r => Sys2Proof.Machine.execDchtmoExpiry r s
  | .syncRise => Sys2Proof.Machine.execSyncRise s
  | .syncTimeout => Sys2Proof.Machine.execSyncTimeout s
  | .checkTimeout => Sys2Proof.Machine.execCheckTimeout s
  | .waitExpiry => Sys2Proof.Machine.execWaitExpiry s
  | .auxiliaryLost => Sys2Proof.Machine.execAuxiliaryLost s
  | .auxiliaryGood => Sys2Proof.Machine.execAuxiliaryGood s
  | .auxiliaryStale => Sys2Proof.Machine.execAuxiliaryStale s
  | .seqEn => Sys2Proof.Machine.execSeqEn s
  | .seqWait => Sys2Proof.Machine.execSeqWait s
  | .seqCheck => Sys2Proof.Machine.execSeqCheck s
  | .seqJump => Sys2Proof.Machine.execSeqJump s
  | .seqSync => Sys2Proof.Machine.execSeqSync s
  | .seqEnd => Sys2Proof.Machine.execSeqEnd s
  | .add e g rd ra rb => Sys2Proof.Machine.execAdd e g rd ra rb s
  | .sub e g rd ra rb => Sys2Proof.Machine.execSub e g rd ra rb s
  | .and e g rd ra rb => Sys2Proof.Machine.execAnd e g rd ra rb s
  | .or e g rd ra rb => Sys2Proof.Machine.execOr e g rd ra rb s
  | .xor e g rd ra rb => Sys2Proof.Machine.execXor e g rd ra rb s
  | .shl e g rd ra rb => Sys2Proof.Machine.execShl e g rd ra rb s
  | .shr e g rd ra rb => Sys2Proof.Machine.execShr e g rd ra rb s
  | .sra e g rd ra rb => Sys2Proof.Machine.execSra e g rd ra rb s
  | .min e g rd ra rb => Sys2Proof.Machine.execMin e g rd ra rb s
  | .max e g rd ra rb => Sys2Proof.Machine.execMax e g rd ra rb s
  | .minu e g rd ra rb => Sys2Proof.Machine.execMinu e g rd ra rb s
  | .maxu e g rd ra rb => Sys2Proof.Machine.execMaxu e g rd ra rb s
  | .mul e g rd ra rb => Sys2Proof.Machine.execMul e g rd ra rb s
  | .mulh e g rd ra rb => Sys2Proof.Machine.execMulh e g rd ra rb s
  | .mulhu e g rd ra rb => Sys2Proof.Machine.execMulhu e g rd ra rb s
  | .div e g rd ra rb => Sys2Proof.Machine.execDiv e g rd ra rb s
  | .divu e g rd ra rb => Sys2Proof.Machine.execDivu e g rd ra rb s
  | .rem e g rd ra rb => Sys2Proof.Machine.execRem e g rd ra rb s
  | .remu e g rd ra rb => Sys2Proof.Machine.execRemu e g rd ra rb s
  | .qadd e g rd ra rb => Sys2Proof.Machine.execQadd e g rd ra rb s
  | .qsub e g rd ra rb => Sys2Proof.Machine.execQsub e g rd ra rb s
  | .qmul e g rd ra rb sh => Sys2Proof.Machine.execQmul e g rd ra rb sh s
  | .qabs e g rd ra => Sys2Proof.Machine.execQabs e g rd ra s
  | .qneg e g rd ra => Sys2Proof.Machine.execQneg e g rd ra s
  | .addi e g rd ra imm => Sys2Proof.Machine.execAddi e g rd ra imm s
  | .andi e g rd ra imm => Sys2Proof.Machine.execAndi e g rd ra imm s
  | .ori e g rd ra imm => Sys2Proof.Machine.execOri e g rd ra imm s
  | .xori e g rd ra imm => Sys2Proof.Machine.execXori e g rd ra imm s
  | .shli e g rd ra sh => Sys2Proof.Machine.execShli e g rd ra sh s
  | .shri e g rd ra sh => Sys2Proof.Machine.execShri e g rd ra sh s
  | .srai e g rd ra sh => Sys2Proof.Machine.execSrai e g rd ra sh s
  | .mini e g rd ra imm => Sys2Proof.Machine.execMini e g rd ra imm s
  | .maxi e g rd ra imm => Sys2Proof.Machine.execMaxi e g rd ra imm s
  | .lui e g rd imm => Sys2Proof.Machine.execLui e g rd imm s
  | .cmp e g c pd ra rb => Sys2Proof.Machine.execCmp e g c pd ra rb s
  | .cmpi e g c pd ra imm => Sys2Proof.Machine.execCmpi e g c pd ra imm s
  | .pand e g pd ps pt => Sys2Proof.Machine.execPand e g pd ps pt s
  | .por e g pd ps pt => Sys2Proof.Machine.execPor e g pd ps pt s
  | .pxor e g pd ps pt => Sys2Proof.Machine.execPxor e g pd ps pt s
  | .pandn e g pd ps pt => Sys2Proof.Machine.execPandn e g pd ps pt s
  | .ldw n g rd ra imm => Sys2Proof.Machine.execLdw n g rd ra imm s
  | .ldh n g rd ra imm => Sys2Proof.Machine.execLdh n g rd ra imm s
  | .ldhu n g rd ra imm => Sys2Proof.Machine.execLdhu n g rd ra imm s
  | .ldb n g rd ra imm => Sys2Proof.Machine.execLdb n g rd ra imm s
  | .ldbu n g rd ra imm => Sys2Proof.Machine.execLdbu n g rd ra imm s
  | .stw n g rs ra imm => Sys2Proof.Machine.execStw n g rs ra imm s
  | .sth n g rs ra imm => Sys2Proof.Machine.execSth n g rs ra imm s
  | .stb n g rs ra imm => Sys2Proof.Machine.execStb n g rs ra imm s
  | .swapw n g rd ra rb => Sys2Proof.Machine.execSwapw n g rd ra rb s
  | .casw n g rd ra rb => Sys2Proof.Machine.execCasw n g rd ra rb s
  | .b n c off => Sys2Proof.Machine.execB n c off s
  | .jal n off => Sys2Proof.Machine.execJal n off s
  | .jalr n rd ra imm => Sys2Proof.Machine.execJalr n rd ra imm s
  | .sysc n imm => Sys2Proof.Machine.execSysc n imm s
  | .brk n imm => Sys2Proof.Machine.execBrk n imm s
  | .eret n => Sys2Proof.Machine.execEret n s
  | .crd n rd cn => Sys2Proof.Machine.execCrd n rd cn s
  | .cwr n cn ra => Sys2Proof.Machine.execCwr n cn ra s
  | .wfe n => Sys2Proof.Machine.execWfe n s
  | .yield n => Sys2Proof.Machine.execYield n s
  | .fence n => Sys2Proof.Machine.execFence n s
  | .ldq t g sz rd a => Sys2Proof.Machine.execLdq t g sz rd a s
  | .ldqU t g sz rd a => Sys2Proof.Machine.execLdqU t g sz rd a s
  | .ald t g ad a => Sys2Proof.Machine.execAld t g ad a s
  | .stq t g sz rs a => Sys2Proof.Machine.execStq t g sz rs a s
  | .ast t g as a => Sys2Proof.Machine.execAst t g as a s
  | .mac t g ad ra rb sh => Sys2Proof.Machine.execMac t g ad ra rb sh s
  | .msu t g ad ra rb sh => Sys2Proof.Machine.execMsu t g ad ra rb sh s
  | .macx t g ad ra rb gs => Sys2Proof.Machine.execMacx t g ad ra rb gs s
  | .msux t g ad ra rb gs => Sys2Proof.Machine.execMsux t g ad ra rb gs s
  | .acr t g rd ad sh => Sys2Proof.Machine.execAcr t g rd ad sh s
  | .acw t g ad ra sh => Sys2Proof.Machine.execAcw t g ad ra sh s
  | .acadd t g ad ra sh => Sys2Proof.Machine.execAcadd t g ad ra sh s
  | .acacc t g ad ab sh => Sys2Proof.Machine.execAcacc t g ad ab sh s
  | .achi t g rd ad => Sys2Proof.Machine.execAchi t g rd ad s
  | .aclo t g rd ad => Sys2Proof.Machine.execAclo t g rd ad s
  | .acclr t g ad => Sys2Proof.Machine.execAcclr t g ad s
  | .adiv t g rd ad rb => Sys2Proof.Machine.execAdiv t g rd ad rb s
  | .rpt t nm1 lenm1 gi inc => Sys2Proof.Machine.execRpt t nm1 lenm1 gi inc s
  | .endLoop t => Sys2Proof.Machine.execEndLoop t s
  | .vrange t g0 nm1 => Sys2Proof.Machine.execVrange t g0 nm1 s
  | .vld t sz sgn m st v a => Sys2Proof.Machine.execVld t sz sgn m st v a s
  | .vst t sz m st v a => Sys2Proof.Machine.execVst t sz m st v a s
  | .vadd t m vd va b => Sys2Proof.Machine.execVadd t m vd va b s
  | .vsub t m vd va b => Sys2Proof.Machine.execVsub t m vd va b s
  | .vmul t m vd va b sh => Sys2Proof.Machine.execVmul t m vd va b sh s
  | .vmin t m vd va b => Sys2Proof.Machine.execVmin t m vd va b s
  | .vmax t m vd va b => Sys2Proof.Machine.execVmax t m vd va b s
  | .vand t m vd va b => Sys2Proof.Machine.execVand t m vd va b s
  | .vor t m vd va b => Sys2Proof.Machine.execVor t m vd va b s
  | .vxor t m vd va b => Sys2Proof.Machine.execVxor t m vd va b s
  | .vsh t m vd va sh => Sys2Proof.Machine.execVsh t m vd va sh s
  | .vmuldiv t m vd va gb gc => Sys2Proof.Machine.execVmuldiv t m vd va gb gc s
  | .vsel t vd va b => Sys2Proof.Machine.execVsel t vd va b s
  | .vidx t m vd => Sys2Proof.Machine.execVidx t m vd s
  | .vscan t m vd va => Sys2Proof.Machine.execVscan t m vd va s
  | .vcmp t c m va b => Sys2Proof.Machine.execVcmp t c m va b s
  | .vsum t m ad va sh => Sys2Proof.Machine.execVsum t m ad va sh s
  | .vcnt t m ad => Sys2Proof.Machine.execVcnt t m ad s
  | .vmaxr t m ad va => Sys2Proof.Machine.execVmaxr t m ad va s
  | .vminr t m ad va => Sys2Proof.Machine.execVminr t m ad va s
  | .vget t gb va gi => Sys2Proof.Machine.execVget t gb va gi s
  | .vput t vd gi gb => Sys2Proof.Machine.execVput t vd gi gb s
  | .vmld t a => Sys2Proof.Machine.execVmld t a s
  | .vmst t a => Sys2Proof.Machine.execVmst t a s
  | .vmand t a => Sys2Proof.Machine.execVmand t a s
  | .vmor t a => Sys2Proof.Machine.execVmor t a s
  | .vmnot t => Sys2Proof.Machine.execVmnot t s
  | .vmall t => Sys2Proof.Machine.execVmall t s
  | .vmnone t => Sys2Proof.Machine.execVmnone t s
  | .start m v => Sys2Proof.Machine.execStart m v s
  | .strandStop m v => Sys2Proof.Machine.execStrandStop m v s
  | .quantumExpiry => Sys2Proof.Machine.execQuantumExpiry s
  | .starvationPromotion n => Sys2Proof.Machine.execStarvationPromotion n s
  | .swev m v => Sys2Proof.Machine.execSwev m v s
  | .evqpop m v => Sys2Proof.Machine.execEvqpop m v s
  | .lostClear m v => Sys2Proof.Machine.execLostClear m v s
  | .inputQualified ix level edges => Sys2Proof.Machine.execInputQualified ix level edges s
  | .toggleWindowEnd ix edges => Sys2Proof.Machine.execToggleWindowEnd ix edges s
  | .stuckExpiry ix => Sys2Proof.Machine.execStuckExpiry ix s
  | .incfgWrite m ix v => Sys2Proof.Machine.execIncfgWrite m ix v s
  | .pmonEnable m v => Sys2Proof.Machine.execPmonEnable m v s
  | .pmonClear m v => Sys2Proof.Machine.execPmonClear m v s
  | .cntcfgWrite m n v => Sys2Proof.Machine.execCntcfgWrite m n v s
  | .scrubStep => Sys2Proof.Machine.execScrubStep s
  | .retire m ix v => Sys2Proof.Machine.execRetire m ix v s
  | .flush m v => Sys2Proof.Machine.execFlush m v s
  | .erase m v => Sys2Proof.Machine.execErase m v s
  | .flashOperationDone => Sys2Proof.Machine.execFlashOperationDone s
  | .chkctlWrite m v => Sys2Proof.Machine.execChkctlWrite m v s
  | .logpop m v => Sys2Proof.Machine.execLogpop m v s
  | .recorderFlushRequest m v => Sys2Proof.Machine.execRecorderFlushRequest m v s
  | .flushTimer => Sys2Proof.Machine.execFlushTimer s
  | .recordWritten ok => Sys2Proof.Machine.execRecordWritten ok s
  | .flushDone => Sys2Proof.Machine.execFlushDone s
  | .sectorEraseDone => Sys2Proof.Machine.execSectorEraseDone s
  | .recorderStart => Sys2Proof.Machine.execRecorderStart s
  | .freezeWrite m v => Sys2Proof.Machine.execFreezeWrite m v s
  | .frzmaxExpiry => Sys2Proof.Machine.execFrzmaxExpiry s
  | .winRead m view => Sys2Proof.Machine.execWinRead m view s
  | .snapshotDone => Sys2Proof.Machine.execSnapshotDone s
  | .snapdataRead m => Sys2Proof.Machine.execSnapdataRead m s
  | .conversionComplete c code => Sys2Proof.Machine.execConversionComplete c code s
  | .referenceSettled => Sys2Proof.Machine.execReferenceSettled s
  | .referenceCheck inRange => Sys2Proof.Machine.execReferenceCheck inRange s
  | .adcrefWrite m v => Sys2Proof.Machine.execAdcrefWrite m v s
  | .injreq m v => Sys2Proof.Machine.execInjreq m v s
  | .adccal m v => Sys2Proof.Machine.execAdccal m v s
  | .calibrationStepDone c => Sys2Proof.Machine.execCalibrationStepDone c s
  | .calibrationDone c offset gain => Sys2Proof.Machine.execCalibrationDone c offset gain s
  | .regularPassStart c => Sys2Proof.Machine.execRegularPassStart c s
  | .rseqWrite m c w v => Sys2Proof.Machine.execRseqWrite m c w v s
  | .connect m v => Sys2Proof.Machine.execConnect m v s
  | .disconnect m v => Sys2Proof.Machine.execDisconnect m v s
  | .leaktElapsed => Sys2Proof.Machine.execLeaktElapsed s
  | .pretmoElapsed => Sys2Proof.Machine.execPretmoElapsed s
  | .pretElapsed => Sys2Proof.Machine.execPretElapsed s
  | .ramptElapsed => Sys2Proof.Machine.execRamptElapsed s
  | .ramptmoElapsed => Sys2Proof.Machine.execRamptmoElapsed s
  | .confbChange ix closed => Sys2Proof.Machine.execConfbChange ix closed s
  | .condlyElapsed => Sys2Proof.Machine.execCondlyElapsed s
  | .contElapsed ix => Sys2Proof.Machine.execContElapsed ix s
  | .comparatorQualified n outside => Sys2Proof.Machine.execComparatorQualified n outside s
  | .extTrip => Sys2Proof.Machine.execExtTrip s
  | .gateFlt low => Sys2Proof.Machine.execGateFlt low s
  | .senseTimeout => Sys2Proof.Machine.execSenseTimeout s
  | .causeclr m v => Sys2Proof.Machine.execCauseclr m v s
  | .cmpConfigWrite m n w v => Sys2Proof.Machine.execCmpConfigWrite m n w v s
  | .limitWrite m r v => Sys2Proof.Machine.execLimitWrite m r v s
  | .eldcmt m v => Sys2Proof.Machine.execEldcmt m v s
  | .transactionAbandoned => Sys2Proof.Machine.execTransactionAbandoned s
  | .nop f => Sys2Proof.Machine.execNop f s
  | .goal f => Sys2Proof.Machine.execGoal f s
  | .notrd f => Sys2Proof.Machine.execNotrd f s
  | .measrd f => Sys2Proof.Machine.execMeasrd f s
  | .sync f => Sys2Proof.Machine.execSync f s
  | .spalertPulse => Sys2Proof.Machine.execSpalertPulse s
  | .nqclr m v => Sys2Proof.Machine.execNqclr m v s
  | .splEnable m v => Sys2Proof.Machine.execSplEnable m v s
  | .page x => Sys2Proof.Machine.execPage x s
  | .operation x => Sys2Proof.Machine.execOperation x s
  | .clearFaults x => Sys2Proof.Machine.execClearFaults x s
  | .writeProtect x => Sys2Proof.Machine.execWriteProtect x s
  | .capability x => Sys2Proof.Machine.execCapability x s
  | .voutMode x => Sys2Proof.Machine.execVoutMode x s
  | .voutCommand x => Sys2Proof.Machine.execVoutCommand x s
  | .statusByte x => Sys2Proof.Machine.execStatusByte x s
  | .statusWord x => Sys2Proof.Machine.execStatusWord x s
  | .statusCml x => Sys2Proof.Machine.execStatusCml x s
  | .statusMfrSpecific x => Sys2Proof.Machine.execStatusMfrSpecific x s
  | .readVin x => Sys2Proof.Machine.execReadVin x s
  | .readVout x => Sys2Proof.Machine.execReadVout x s
  | .readIout x => Sys2Proof.Machine.execReadIout x s
  | .readTemperature1 x => Sys2Proof.Machine.execReadTemperature1 x s
  | .readPout x => Sys2Proof.Machine.execReadPout x s
  | .pmbusRevision x => Sys2Proof.Machine.execPmbusRevision x s
  | .mfrId x => Sys2Proof.Machine.execMfrId x s
  | .mfrModel x => Sys2Proof.Machine.execMfrModel x s
  | .mfrRevision x => Sys2Proof.Machine.execMfrRevision x s
  | .mfrWinAddr x => Sys2Proof.Machine.execMfrWinAddr x s
  | .mfrWinData x => Sys2Proof.Machine.execMfrWinData x s
  | .mfrRecCursor x => Sys2Proof.Machine.execMfrRecCursor x s
  | .mfrRecRead x => Sys2Proof.Machine.execMfrRecRead x s
  | .mfrRecFreeze x => Sys2Proof.Machine.execMfrRecFreeze x s
  | .mfrUpdCtrl x => Sys2Proof.Machine.execMfrUpdCtrl x s
  | .mfrUpdData x => Sys2Proof.Machine.execMfrUpdData x s
  | .mfrAlertEvents x => Sys2Proof.Machine.execMfrAlertEvents x s
  | .mfrReqEvents x => Sys2Proof.Machine.execMfrReqEvents x s
  | .mfrEvseq x => Sys2Proof.Machine.execMfrEvseq x s
  | .alertResponse won raisedMeanwhile => Sys2Proof.Machine.execAlertResponse won raisedMeanwhile s
  | .requestResponse won raisedMeanwhile => Sys2Proof.Machine.execRequestResponse won raisedMeanwhile s
  | .sleep => Sys2Proof.Machine.execSleep s
  | .sclTimeout => Sys2Proof.Machine.execSclTimeout s
  | .sdaTimeout => Sys2Proof.Machine.execSdaTimeout s
  | .inBandRequestPulse collides => Sys2Proof.Machine.execInBandRequestPulse collides s
  | .hcmdpop m v => Sys2Proof.Machine.execHcmdpop m v s
  | .tlmrdy m v => Sys2Proof.Machine.execTlmrdy m v s
  | .controllerGo m v a => Sys2Proof.Machine.execControllerGo m v a s
  | .backoffExpiry a => Sys2Proof.Machine.execBackoffExpiry a s
  | .controllerDone nacked => Sys2Proof.Machine.execControllerDone nacked s
  | .localTransferGo m v sda => Sys2Proof.Machine.execLocalTransferGo m v sda s
  | .localTransferDone nacked bytes pec => Sys2Proof.Machine.execLocalTransferDone nacked bytes pec s
  | .localSclTimeout => Sys2Proof.Machine.execLocalSclTimeout s
  | .begin m v => Sys2Proof.Machine.execBegin m v s
  | .activate m v => Sys2Proof.Machine.execActivate m v s
  | .abort m v => Sys2Proof.Machine.execAbort m v s
  | .plansgo m v => Sys2Proof.Machine.execPlansgo m v s
  | .confirm m v => Sys2Proof.Machine.execConfirm m v s
  | .rcvreq m v => Sys2Proof.Machine.execRcvreq m v s
  | .migdone m v => Sys2Proof.Machine.execMigdone m v s
  | .trialarm m v => Sys2Proof.Machine.execTrialarm m v s
  | .upddataWrite m v => Sys2Proof.Machine.execUpddataWrite m v s
  | .headerTestDone => Sys2Proof.Machine.execHeaderTestDone s
  | .updateEraseDone => Sys2Proof.Machine.execUpdateEraseDone s
  | .endCheckDone => Sys2Proof.Machine.execEndCheckDone s
  | .updtimeExpiry => Sys2Proof.Machine.execUpdtimeExpiry s
  | .trialExpiry => Sys2Proof.Machine.execTrialExpiry s
  | .socmeanStale => Sys2Proof.Machine.execSocmeanStale s
  | .prog m v => Sys2Proof.Machine.execProg m v s
  | .fuseProgramDone unblown => Sys2Proof.Machine.execFuseProgramDone unblown s
  | .vinLowRising mv => Sys2Proof.Machine.execVinLowRising mv s
  | .resetRelease => Sys2Proof.Machine.execResetRelease s
  | .downlinkEndBArrival c bytes => Sys2Proof.Machine.execDownlinkEndBArrival c bytes s
  | .syncQualifiedLow => Sys2Proof.Machine.execSyncQualifiedLow s
  | .syncPulseTimer => Sys2Proof.Machine.execSyncPulseTimer s
  | .wakeNack => Sys2Proof.Machine.execWakeNack s
  | .unsupportedCommand code x => Sys2Proof.Machine.execUnsupportedCommand code x s
  | .reservedOp op f => Sys2Proof.Machine.execReservedOp op f s
  | .reservedEncoding e w => Sys2Proof.Machine.execReservedEncoding e w s
  | .reservedStepWord => Sys2Proof.Machine.execReservedStepWord s

end Sys2Proof.Machine
end

