-- ==== Sys2Proof/Safety.lean ====
section
/-! DEFINITION. What claims are stated in: the shape that every part of the machine keeps. -/

namespace Sys2Proof.Machine

/-- The shape of the tables, files and queues: memory, registers and shadows in canonical form; eight strands, two tiles,
thirty-two inputs and eight counters of 48 bits (R396, R443, R446); an event queue of at most 32 entries, a loss count of
16 bits and an event number of 32 bits (R436, R439). -/
structure Shape (mem : List Host.Cell) (regs shadows : List (Nat × Word)) (strands : List Strand) (tiles : List Tile)
    (inputs : List Input) (pmon : List Nat) (ev : Events) : Prop where
  mem     : Memory.wf mem = true
  regs    : twf regReset 0 regs = true
  shadows : twf (fun _ => (0 : Word)) 0 shadows = true
  strands : strands.length = 8
  tiles   : tiles.length = 2
  inputs  : inputs.length = 32
  pmon    : pmon.length = 8 ∧ ∀ k ∈ pmon, k < 2 ^ 48
  ev      : ev.queue.length ≤ 32 ∧ ev.lost ≤ 0xFFFF ∧ ev.seq < 2 ^ 32

/-- The invariant of the part. -/
def Chip.Inv (c : Chip) : Prop := Shape c.mem c.regs c.shadows c.strands c.tiles c.inputs c.pmon c.ev

end Sys2Proof.Machine
end

