-- ==== Sys2Proof/WellFormed.lean ====
section
/-! DEFINITION. Which commands are well formed: the ranges that an operand's type leaves open. A meaning is total on
ill-formed commands too; the round trip of the ZIS words is stated for well-formed ones. -/

namespace Sys2Proof

/-- An address of the 32-bit map (R55). -/
def addrOk (a : Nat) : Bool := a < 2 ^ 32

/-- A bus access of one, two or four bytes (R6). -/
def sizeOk (n : Nat) : Bool := n == 1 || n == 2 || n == 4

/-- A supply voltage that VMON.VINMV can hold (R106). -/
def mvOk (mv : Nat) : Bool := mv < 2 ^ 16

/-- A temperature of a signed 16-bit field (R12). -/
def tempOk (x : Int) : Bool := -32768 ≤ x && x ≤ 32767

/-- The longest uplink frame is 4 header bytes, 16 records of 10 bytes and a 4-byte check at most (R120). -/
def frameOk (bs : List Byte) : Bool := bs.length ≤ 256

/-- A write transfer carries at most 255 data bytes (R513). -/
def Xfer.ok : Xfer → Bool
  | .read => true
  | .write d _ => d.length ≤ 255

/-- The PMBus command codes of Table 17.3 and the manufacturer's (R519, R525). -/
def pmbusCodes : List Nat :=
  [0x00, 0x01, 0x03, 0x10, 0x19, 0x20, 0x21, 0x78, 0x79, 0x7E, 0x80, 0x88, 0x8B, 0x8C, 0x8D, 0x96, 0x98, 0x99, 0x9A,
   0x9B, 0xD0, 0xD1, 0xD2, 0xD3, 0xD4, 0xD5, 0xD6, 0xD7, 0xD8, 0xD9]

/-- The set-point link opcodes that have a meaning (Table 6.3). -/
def splOps : List Nat := [0, 1, 2, 3, 15]

/-- A command is well formed. -/
def Instr.wf : Instr → Bool
  | .registerWrite _ a n _ => addrOk a && sizeOk n
  | .rcRead _ a => addrOk a
  | .lowHalfRead _ a => addrOk a
  | .aonPowerOn mv => mvOk mv
  | .aonPowerOff mv => mvOk mv
  | .brownOut mv => mvOk mv
  | .vinLow mv => mvOk mv
  | .vinLowRecovery mv => mvOk mv
  | .powerFail mv => mvOk mv
  | .powerFailRecovery mv => mvOk mv
  | .vinWarning _ mv => mvOk mv
  | .vinLowRising mv => mvOk mv
  | .uplinkFrameArrival _ _ bs => frameOk bs
  | .downlinkEndBArrival _ bs => frameOk bs
  | .markArrival _ ui => ui < 2 ^ 16
  | .dieConversion s0 s1 => tempOk s0 && tempOk s1
  | .localTransferDone _ bs _ => bs.length ≤ 16
  | .reservedOp op _ => !splOps.contains op.toNat
  | .unsupportedCommand code x => !pmbusCodes.contains code.toNat && x.ok
  | .crd _ _ cn => cn.val < 8
  | .cwr _ cn _ => cn.val < 8
  | .ldqU _ _ sz _ _ => sz != .word
  | .vrange _ g0 nm1 => g0.val + nm1.val + 1 ≤ 16
  | .vld _ sz sgn _ st _ _ => decide (sz.bytes ≤ 2 ^ st.val) && !(sgn && sz == .word)
  | .vst _ sz _ st _ _ => decide (sz.bytes ≤ 2 ^ st.val)
  | .reservedEncoding e w => (zisDecode e w).isNone
  | .page x => x.ok
  | .operation x => x.ok
  | .writeProtect x => x.ok
  | .voutCommand x => x.ok
  | .mfrWinAddr x => x.ok
  | .mfrWinData x => x.ok
  | .mfrRecCursor x => x.ok
  | .mfrRecFreeze x => x.ok
  | .mfrUpdCtrl x => x.ok
  | .mfrUpdData x => x.ok
  | .mfrAlertEvents x => x.ok
  | .mfrReqEvents x => x.ok
  | _ => true

end Sys2Proof
end

