-- ==== Sys2Proof/Certificates/Slice0/Obligations.lean ====
section
/-! DEFINITION. The statements about the model, from the spec's rules. -/

namespace Sys2Proof.Claims

open Sys2Proof Sys2Proof.Machine

/-- Command `i` at `s` answers a next state: the part is `c` with what every command ends with, the queue is as it was. -/
abbrev Does (s : State) (i : Instr) (c : Chip) : Prop := exec i s = .next (s.after c)

/-- The bus grants master `m` a word write of the register at `a` (R6, R22, R50, R55). -/
abbrev MayWrite (s : State) (m : Master) (a : Nat) : Prop := s.chip.writeGrant m a 4 = true

/-- The part answers that a write is done. -/
def ok (c : Chip) : Chip := { c with answer := .done }

/-- The part answers a read with `w`. -/
def val (c : Chip) (w : Word) : Chip := { c with answer := .value w }

end Sys2Proof.Claims

open Sys2Proof Sys2Proof.Machine Sys2Proof.Claims

/-! The block: its queue, its reset, its shape. -/

/-- A step runs the command at the front of the queue on the queue's rest. -/
def Obligations.step_runs_front : Prop :=
  ∀ (i : Instr) (rest : List Instr) (s : State),
    step { s with pending := i :: rest } = exec i { s with pending := rest }

/-- The model's choice (log 1): on an empty queue one tick of 10 ns passes, and the queue stays empty; the tick
counter advances by one where TGRID is up and stands still where it is not. Every command of the table, at every
state, answers a next state and leaves the commands that wait as they are. -/
def Obligations.idle_and_queue : Prop :=
  (∀ s : State, s.pending = [] →
     ∃ t, step s = .next t ∧ t.pending = [] ∧ t.chip.now = s.chip.now + 1 ∧
       t.chip.tg.tick = s.chip.tg.tick + (if s.chip.up .tgrid then 1 else 0)) ∧
  (∀ (i : Instr) (s : State), ∃ t, exec i s = .next t ∧ t.pending = s.pending)

/-- What the spec gives of the part before power: the shelf is OFF with nothing powered and nothing latched, no command
waits, every strand is STOPPED, both tiles are idle, the gate is OPEN, every rail is OFF, no event is numbered, and every
register holds its table's reset value, of which the period, the watchdog, the TSYNC window, the CRC state and the trap
vectors are named. -/
def Obligations.reset_values : Prop :=
  let c := State.reset.chip
  State.reset.pending = [] ∧ c.pwr.cur = .off ∧ c.pwr.prev = .off ∧ c.pwr.latch = false ∧ c.pwr.fltEvt = 0 ∧
  (∀ d, c.up d = false) ∧ (∀ a, c.reg a = regReset a) ∧ c.mem = [] ∧
  readTgrid c .window Reg.period = 0x07D007D0 ∧ readTgrid c .window Reg.updl = 0x03520352 ∧
  readTgrid c .window Reg.chordr = 0x05780578 ∧ readTgrid c .window Reg.ppswin = 0x4E20 ∧
  readSys c Reg.devid = 0x12800201 ∧ readSys c Reg.wdtctl = 0x64 ∧ readSys c Reg.bootstat = 1 ∧
  readCrc c Reg.crcstate = 0xFFFFFFFF ∧ readCrc c Reg.crcres = 0 ∧
  (∀ n : Fin 8, (c.strand n.val).run = .stopped ∧ (c.strand n.val).tvec = 0x10000000 ∧ c.pmon.getD n.val 0 = 0) ∧
  (∀ t : Fin 2, (c.tile t.val).running = false ∧ (c.tile t.val).vn = 16 ∧ (c.tile t.val).vg0 = 0) ∧
  (∀ k : Fin 128, (c.hslot k.val).st = .absent) ∧ c.gate.gst = .open_ ∧ (∀ r : Fin 16, (c.rail r.val).st = .off) ∧
  c.ev.seq = 0 ∧ c.ev.queue = [] ∧ c.recd.buf = [] ∧ c.spl.goals = [] ∧ c.twb0.hcq = [] ∧ c.upd.phase = 0

/-- The shape that every part of the machine keeps holds at reset. -/
def Obligations.shape_at_reset : Prop := State.reset.chip.Inv

/-- Every step keeps the shape: memory, registers and shadows in canonical form, eight strands, two tiles, thirty-two
inputs, eight counters below 2^48, at most 32 queued events, a loss count of 16 bits and an event number of 32 bits. -/
def Obligations.shape_kept_by_every_step : Prop :=
  ∀ s t : State, s.chip.Inv → step s = .next t → t.chip.Inv

/-- What every command ends with (numbering and routing its events, following inputs, a due snapshot) touches neither
time nor power, memory, the grid, the CRC, the tiles, the hub, allocation, estimation, temperatures, the gate, the
converters, updates or fuses, and of a strand neither its registers nor its exception state. -/
def Obligations.command_end_frame : Prop :=
  ∀ c : Chip,
    c.settle.now = c.now ∧ c.settle.pwr = c.pwr ∧ c.settle.shelfReq = c.shelfReq ∧ c.settle.tg = c.tg ∧
    c.settle.shadows = c.shadows ∧ c.settle.mem = c.mem ∧ c.settle.badPar = c.badPar ∧ c.settle.ecc = c.ecc ∧
    c.settle.snap = c.snap ∧ c.settle.fuses = c.fuses ∧ c.settle.crc = c.crc ∧ c.settle.issue = c.issue ∧
    c.settle.inputs = c.inputs ∧ c.settle.pins = c.pins ∧ c.settle.tiles = c.tiles ∧ c.settle.fo = c.fo ∧
    c.settle.hub = c.hub ∧ c.settle.loop.loops = c.loop.loops ∧ c.settle.loop.coef = c.loop.coef ∧
    c.settle.alloc = c.alloc ∧ c.settle.est = c.est ∧ c.settle.therm = c.therm ∧ c.settle.age = c.age ∧
    c.settle.gate = c.gate ∧ c.settle.adc = c.adc ∧ c.settle.twb1 = c.twb1 ∧ c.settle.memc = c.memc ∧
    c.settle.upd = c.upd ∧ c.settle.freeIx = c.freeIx ∧ c.settle.answer = c.answer ∧ c.settle.raised = [] ∧
    c.settle.spl.goals = c.spl.goals ∧ c.settle.twb0.hcq = c.twb0.hcq ∧
    ∀ n : Nat, (c.settle.strand n).g = (c.strand n).g ∧ (c.settle.strand n).p = (c.strand n).p ∧
      (c.settle.strand n).pc = (c.strand n).pc ∧ (c.settle.strand n).priv = (c.strand n).priv ∧
      (c.settle.strand n).epc = (c.strand n).epc ∧ (c.settle.strand n).ecause = (c.strand n).ecause ∧
      (c.settle.strand n).eaddr = (c.strand n).eaddr ∧ (c.settle.strand n).tvec = (c.strand n).tvec ∧
      (c.settle.strand n).scr = (c.strand n).scr ∧
      ((c.strand n).run ≠ .waiting → (c.settle.strand n).run = (c.strand n).run)

/-- Raisings are numbered in the order of their stamps, those of one tick by event number and then by source, each
once. With the counters off, each raising of a command takes the next event number, those held while SUP was down
first, and none is held afterwards; while SUP is down none is numbered, and each source's first of each event is held.
-/
def Obligations.event_numbering : Prop :=
  (∀ l : List Raise, (sortRaises l).Perm l ∧ (sortRaises l).Pairwise fun a b => b.before a = false) ∧
  (∀ c : Chip, c.Inv →
     (c.up .sup = true → c.bit Reg.pmctl 0 = false →
       c.settleEvents.ev.seq % 2 ^ 32 = (c.ev.seq + c.ev.held.length + c.raised.length) % 2 ^ 32 ∧
       c.settleEvents.ev.held = [] ∧ c.settleEvents.raised = []) ∧
     (c.up .sup = false →
       c.settleEvents.ev.seq = c.ev.seq ∧ c.settleEvents.ev.queue = c.ev.queue ∧
       ∀ r ∈ c.raised, ∃ h ∈ c.settleEvents.ev.held, h.ev = r.ev ∧ h.src = r.src))

/-! The bus (chapters 0, 1 and 15). -/

/-- A register access is granted exactly where it is an aligned word in a block's row of the map, the block's domain
is powered and out of reset, a tile reaches it only in LOOP, ALLOC, EST or THERM, and a strand at user level only as
it reads a counter while PMCTL.USRRD is 1; FECHIP and the LnDTOT are written by the active tile alone. A register
access that is no aligned word, or whose block is down, or that a user-level strand may not make, is answered by a bus
error and changes no register, memory byte or CRC state; only the counters of bus errors see it, and where the strand
that accessed is READY it takes the BUS exception of R435 with the address in c4. -/
def Obligations.register_access : Prop :=
  (∀ (c : Chip) (m : Master) (a n : Nat) (load : Bool), inBlock a = true →
     (c.regGrant m a n load = true ↔
       n = 4 ∧ a % 4 = 0 ∧ c.up (blockDom a) = true ∧
       (∀ t, m = .tile t → (0x40004000 ≤ a ∧ a < 0x40007000) ∨ (0x40008000 ≤ a ∧ a < 0x40009000)) ∧
       (c.userLevel m = true → load = true ∧ c.bit Reg.pmctl 1 = true ∧
         ∃ i : Fin 8, a = Reg.cntLo i.val ∨ a = Reg.cntHi i.val)) ∧
     (c.writeGrant m a n = true ↔ c.regGrant m a n false = true ∧
       ((a = Reg.fechip ∨ ∃ l : Fin 4, a = Reg.lnDtot l.val) → c.isActiveTile m = true))) ∧
  (∀ (s : State) (n : Fin 8) (a sz : Nat) (v : Word), s.chip.Inv → inBlock a = true →
     s.chip.writeGrant (.strand n) a sz = false →
     ∃ t, exec (.registerWrite (.strand n) a sz v) s = .next t ∧ t.chip.answer = .busError ∧
       t.chip.mem = s.chip.mem ∧ t.chip.crc = s.chip.crc ∧ t.chip.pwr = s.chip.pwr ∧ t.chip.tg = s.chip.tg ∧
       t.chip.gate = s.chip.gate ∧ t.chip.hub = s.chip.hub ∧
       ((s.chip.strand n.val).run ≠ .ready → (t.chip.strand n.val).pc = (s.chip.strand n.val).pc) ∧
       ((s.chip.strand n.val).run = .ready →
         (t.chip.strand n.val).ecause = 4 ∧ (t.chip.strand n.val).eaddr = word a ∧
         (t.chip.strand n.val).epc = (s.chip.strand n.val).pc ∧ (t.chip.strand n.val).pc = (s.chip.strand n.val).tvec ∧
         (t.chip.strand n.val).priv = true ∧ (t.chip.strand n.val).ppriv = (s.chip.strand n.val).priv))

/-- A granted read of a register answers its value; its RC bits then hold their reset value, and no other register's
stored bits change but of a view or the snapshot's offset that the register reads through. A read of TICKLO answers
the counter's low word and latches its high word for the master that reads, and for no other master; TICKHI then
answers that shadow. -/
def Obligations.reads_with_effects : Prop :=
  (∀ (s : State) (m : Master) (a : Nat) (r : RegRow), s.chip.Inv → s.chip.regGrant m a 4 true = true →
     a ≠ Reg.win0 7 → a ≠ Reg.win1 7 → a ≠ Reg.snapdata → s.chip.highHalf a = none → regRow a = some r →
     Does s (.rcRead m a)
       (val (if r.rc = 0 then s.chip else s.chip.setReg a (regReset a)) (s.chip.regRead m a))) ∧
  (∀ (s : State) (m : Master), s.chip.Inv → s.chip.regGrant m Reg.ticklo 4 true = true →
     Does s (.lowHalfRead m Reg.ticklo)
       (val (s.chip.latch m Reg.tickhi (word (s.chip.tg.tick / 2 ^ 32))) (word s.chip.tg.tick)) ∧
     readTgrid (s.chip.latch m Reg.tickhi (word (s.chip.tg.tick / 2 ^ 32))) m Reg.tickhi =
       word (s.chip.tg.tick / 2 ^ 32) ∧
     ∀ m', m' ≠ m → (s.chip.latch m Reg.tickhi (word (s.chip.tg.tick / 2 ^ 32))).shadow m' Reg.tickhi =
       s.chip.shadow m' Reg.tickhi)

/-- The CRC block: INIT sets the state to ones; CRCDATA shifts in four bytes, the low one first; CRCBYTE shifts in one
byte; CRCSTATE loads the state; and CRCRES reads the state inverted. The spec's example of R13: the nine bytes
"123456789" with no context word give 0xE3069283. -/
def Obligations.crc_block : Prop :=
  (∀ (s : State) (m : Master) (v : Word),
     (MayWrite s m Reg.crcctl → v.getLsbD 0 = true → Does s (.crcInit m v) (ok { s.chip with crc := 0xFFFFFFFF })) ∧
     (MayWrite s m Reg.crcdata → Does s (.crcData m v) (ok { s.chip with
       crc := [0, 8, 16, 24].foldl (fun x i => crcByteStep x (v.extractLsb' i 8)) s.chip.crc })) ∧
     (MayWrite s m Reg.crcbyte → Does s (.crcByte m v) (ok { s.chip with
       crc := crcByteStep s.chip.crc (v.extractLsb' 0 8) })) ∧
     (MayWrite s m Reg.crcstate → Does s (.crcStateLoad m v) (ok { s.chip with crc := v })) ∧
     readCrc s.chip Reg.crcres = ~~~s.chip.crc) ∧
  (check [0x31, 0x32, 0x33, 0x34, 0x35, 0x36, 0x37, 0x38, 0x39] = 0xE3069283)

/-- What a plain write stores, bit by bit: a bit that firmware writes takes the value; a lockable bit takes it unless
the block's lock is set; a bit cleared by writing 1 clears where 1 is written and stays where 0 is; every other bit,
and every other register, stays. A reserved offset stores nothing. Writing 1 to LOCK sets a lock; writing 0 does
nothing; and while TGLOCK or SYSLOCK is set, a granted write to TGCTL, PPSWIN or WDTCTL is answered as done and
changes nothing. -/
def Obligations.plain_writes_and_locks : Prop :=
  (∀ (c : Chip) (a : Nat) (v : Word), c.Inv →
     (regRow a = none → c.plainWrite a v = c) ∧
     (∀ r, regRow a = some r →
       (∀ b, b ≠ a → (c.plainWrite a v).reg b = c.reg b) ∧
       ∀ k, k < 32 → (c.plainWrite a v).bit a k =
         if r.w1c.getLsbD k && v.getLsbD k then false
         else if r.rw.getLsbD k || (r.lk.getLsbD k && !(decide (r.lockAt ≠ 0) && c.bit r.lockAt 0)) then v.getLsbD k
         else c.bit a k)) ∧
  ((∀ (s : State) (m : Master) (r : LockReg) (v : Word), MayWrite s m (lockAddr r) →
     (v.getLsbD 0 = false → Does s (.lock m r v) (ok s.chip)) ∧
     (v.getLsbD 0 = true → Does s (.lock m r v)
       (ok (if r = .flock then { s.chip with fuses.locked := true } else s.chip.setReg (lockAddr r) 1)))) ∧
   (∀ (s : State) (m : Master) (v : Word),
     (s.chip.bit Reg.tglock 0 = true → MayWrite s m Reg.tgctl →
       Does s (.registerWrite m Reg.tgctl 4 v) (ok s.chip)) ∧
     (s.chip.bit Reg.tglock 0 = true → MayWrite s m Reg.ppswin →
       Does s (.registerWrite m Reg.ppswin 4 v) (ok s.chip)) ∧
     (s.chip.bit Reg.syslock 0 = true → MayWrite s m Reg.wdtctl →
       Does s (.registerWrite m Reg.wdtctl 4 v) (ok s.chip))))

/-- A strand's store of 1, 2 or 4 aligned bytes to a data SRAM page in use, with SUP up and no check bits forced,
completes; each byte stored then reads as written, little-endian, with good parity, and every other byte of memory is as
it was. -/
def Obligations.sram_store_changes_its_bytes_only : Prop :=
  ∀ (s : State) (n : Fin 8) (a sz : Nat) (v : Word), s.chip.Inv → sz = 1 ∨ sz = 2 ∨ sz = 4 → a % sz = 0 →
    inSram a = true → s.chip.up .sup = true → s.chip.memc.retired.getLsbD (sramPage a) = false →
    s.chip.bit Reg.chkctl 0 = false → s.chip.bit Reg.pmctl 0 = false →
    ∃ t, exec (.registerWrite (.strand n) a sz v) s = .next t ∧ t.chip.answer = .done ∧
      (∀ i, i < sz → t.chip.byte (a + i) = v.extractLsb' (8 * i) 8 ∧ (a + i) ∉ t.chip.badPar) ∧
      ∀ b, b < a ∨ a + sz ≤ b → t.chip.byte b = s.chip.byte b

/-! The time grid and the control period (chapter 1). -/

/-- The three instants after the vertex follow in their order: each moves the grid to its instant, and the counter to
at least the tick that the period in force gives it, and leaves the rest of the grid as it was. A vertex after the
chord: PERSEQ counts one up, modulo 2^32; without an alignment in hand it falls PERIOD ticks after the one before, and
that tick is latched; a committed period set whose vertex this is comes into force and is pending no more, one
committed in the period that ends waits one vertex more; and a PLL that has held lock drives the grid again. -/
def Obligations.period_instants_and_vertex : Prop :=
  (∀ s : State, s.chip.up .tgrid = true →
     (s.chip.tg.instant = .vertex → ∃ t, exec .uplinkStart s = .next t ∧
       t.chip.tg = { s.chip.tg with instant := .uplink, tick := Nat.max s.chip.tg.tick (s.chip.tg.vtx + 150) }) ∧
     (s.chip.tg.instant = .uplink → ∃ t, exec .uplinkDeadline s = .next t ∧
       t.chip.tg = { s.chip.tg with
         instant := .deadline, tick := Nat.max s.chip.tg.tick (s.chip.tg.vtx + s.chip.tg.updl) }) ∧
     (s.chip.tg.instant = .deadline → ∃ t, exec .chord s = .next t ∧
       t.chip.tg = { s.chip.tg with
         instant := .chord, tick := Nat.max s.chip.tg.tick (s.chip.tg.vtx + s.chip.tg.chord) })) ∧
  (∀ s : State, s.chip.up .tgrid = true → s.chip.tg.instant = .chord → s.chip.bit Reg.tgctl 1 = false →
     ∃ t, exec .vertex s = .next t ∧ t.chip.tg.instant = .vertex ∧
       t.chip.tg.perseq = (s.chip.tg.perseq + 1) % 2 ^ 32 ∧
       t.chip.tg.vtx = s.chip.tg.vtx + s.chip.tg.period ∧
       t.chip.tg.tick = Nat.max s.chip.tg.tick (s.chip.tg.vtx + s.chip.tg.period) ∧
       (s.chip.tg.pend = none → t.chip.tg.period = s.chip.tg.period ∧ t.chip.tg.updl = s.chip.tg.updl ∧
         t.chip.tg.chord = s.chip.tg.chord ∧ t.chip.tg.pend = none) ∧
       (∀ p u h, s.chip.tg.pend = some (p, u, h) → s.chip.tg.pendIn = 1 →
         t.chip.tg.period = p ∧ t.chip.tg.updl = u ∧ t.chip.tg.chord = h ∧ t.chip.tg.pend = none) ∧
       (∀ p u h, s.chip.tg.pend = some (p, u, h) → s.chip.tg.pendIn = 2 →
         t.chip.tg.period = s.chip.tg.period ∧ t.chip.tg.updl = s.chip.tg.updl ∧
         t.chip.tg.chord = s.chip.tg.chord ∧ t.chip.tg.pend = some (p, u, h) ∧ t.chip.tg.pendIn = 1) ∧
       (t.chip.tg.locked = (s.chip.tg.locked || s.chip.tg.pllReturn)) ∧
       (t.chip.tg.fallback = (s.chip.tg.fallback && !s.chip.tg.pllReturn)))

/-- A commit is taken where none waits and the staged set meets the four conditions of Table 1.6 for the longest enabled
chain, the loop program's worst case, and the alignment's divisor: the set waits for the vertex after the next. Anything
else is refused with CFGERR and nothing more. -/
def Obligations.commit_checks_the_staged_period : Prop :=
  ∀ (s : State) (m : Master) (v : Word) (p u h : Nat), MayWrite s m Reg.percommit → v.getLsbD 0 = true →
    p = s.chip.rf Reg.period 0 15 → u = s.chip.rf Reg.updl 0 15 → h = s.chip.rf Reg.chordr 0 15 →
    ((s.chip.tg.pend = none ∧ 1000 ≤ p ∧ p ≤ 20000 ∧ 180 + 40 * s.chip.chainLen ≤ u ∧ u + 180 ≤ h ∧
        h + 40 + 35 * s.chip.chainLen ≤ p ∧
        ((∃ x ∈ s.chip.tiles, x.loaded = true) → s.chip.rf Reg.wcsr 0 16 ≤ 4 * (h - u)) ∧
        (s.chip.bit Reg.tgctl 1 = true → 100000000 % p = 0) →
      Does s (.commit m v) (ok { s.chip with tg.pend := some (p, u, h), tg.pendIn := 2 })) ∧
    (¬(s.chip.tg.pend = none ∧ 1000 ≤ p ∧ p ≤ 20000 ∧ 180 + 40 * s.chip.chainLen ≤ u ∧ u + 180 ≤ h ∧
        h + 40 + 35 * s.chip.chainLen ≤ p ∧
        ((∃ x ∈ s.chip.tiles, x.loaded = true) → s.chip.rf Reg.wcsr 0 16 ≤ 4 * (h - u)) ∧
        (s.chip.bit Reg.tgctl 1 = true → 100000000 % p = 0)) →
      Does s (.commit m v) (ok (s.chip.setBit Reg.tgstat 4))))

/-- Where a set is pending, a commit is refused with CFGERR and the pending set stays. -/
def Obligations.commit_while_pending_refused : Prop :=
  ∀ (s : State) (m : Master) (v : Word), s.chip.Inv → MayWrite s m Reg.percommit → v.getLsbD 0 = true →
    s.chip.tg.pend.isSome = true →
    ∃ t, exec (.commit m v) s = .next t ∧ t.chip.tg.pend = s.chip.tg.pend ∧ t.chip.tg.pendIn = s.chip.tg.pendIn ∧
      readTgrid t.chip m Reg.tgstat &&& 0x18 = 0x18

/-- When a locked PLL loses lock, LOCK clears, FALLBACK sets and event 10 is raised, at the same tick; once it has
held lock for 1 ms in fallback it waits for the next vertex. TSYNC with PPSEN at 1: the first edge is captured without
condition; a later one within PPSWIN of 100 000 000 ticks after the last is captured with its error; one outside is
counted as rejected with PPSREJ and captures nothing. Without an edge by 100 000 000 + PPSWIN ticks PPSVALID clears,
event 14 is raised, TRIM holds, and the next edge is taken as a first. -/
def Obligations.pll_and_tsync : Prop :=
  (∀ s : State, s.chip.up .tgrid = true →
     (s.chip.tg.locked = true → Does s .pllLockLoss
       ({ s.chip with tg.locked := false, tg.fallback := true, tg.pllReturn := false }.raise 10)) ∧
     (s.chip.tg.fallback = true → Does s .pllLockHeld { s.chip with tg.pllReturn := true })) ∧
  (∀ s : State, s.chip.Inv → s.chip.up .tgrid = true → s.chip.bit Reg.tgctl 0 = true →
     ((s.chip.input 2).unstable = false → s.chip.tg.ppsArmed = false →
       ∃ t, exec .tsyncEdge s = .next t ∧ t.chip.tg.ppsLast = s.chip.tg.tick ∧ t.chip.tg.ppsErr = s.chip.tg.ppsErr ∧
         t.chip.tg.ppsValid = true ∧ t.chip.tg.ppsArmed = true ∧
         t.chip.tg.ppsAcc = Nat.min 0xFFFF (s.chip.tg.ppsAcc + 1)) ∧
     ((s.chip.input 2).unstable = false → s.chip.tg.ppsArmed = true →
       s.chip.tg.ppsLast + 100000000 ≤ s.chip.tg.tick + s.chip.rf Reg.ppswin 0 20 →
       s.chip.tg.tick ≤ s.chip.tg.ppsLast + 100000000 + s.chip.rf Reg.ppswin 0 20 →
       ∃ t, exec .tsyncEdge s = .next t ∧ t.chip.tg.ppsLast = s.chip.tg.tick ∧
         t.chip.tg.ppsErr = (s.chip.tg.tick : Int) - (s.chip.tg.ppsLast + 100000000 : Nat) ∧
         t.chip.tg.ppsValid = true) ∧
     ((s.chip.input 2).unstable = false → s.chip.tg.ppsArmed = true →
       (s.chip.tg.tick + s.chip.rf Reg.ppswin 0 20 < s.chip.tg.ppsLast + 100000000 ∨
         s.chip.tg.ppsLast + 100000000 + s.chip.rf Reg.ppswin 0 20 < s.chip.tg.tick) →
       Does s .tsyncEdge
         ({ s.chip with tg.ppsRej := Nat.min 0xFFFF (s.chip.tg.ppsRej + 1) }.setBit Reg.tgstat 6)) ∧
     (s.chip.tg.ppsValid = true → ∃ t, exec .ppsTimeout s = .next t ∧ t.chip.tg.ppsValid = false ∧
       t.chip.tg.ppsArmed = false ∧
       t.chip.tg.tick = Nat.max s.chip.tg.tick (s.chip.tg.ppsLast + 100000000 + s.chip.rf Reg.ppswin 0 20) ∧
       t.chip.reg Reg.trim = s.chip.reg Reg.trim))

/-! Supplies, resets, boot and ship mode (chapter 3). -/

namespace Sys2Proof.Claims

/-- What a system reset leaves, seen from the part `c` before it, reported as bit `cause` of RSTCAUSE: every domain but
AON is in reset, HUB and the tiles are unpowered with their requests cleared, every register outside AON's block holds
its reset value, flash, record store and data SRAM are as they were, the event number goes on, the fault latch is kept,
and a shelf that was connected or connecting is in STANDBY, or in FAULT-LATCHED if it is latched. -/
structure AfterSystemReset (c t : Chip) (cause : Nat) : Prop where
  down : ∀ d, d ≠ .aon → t.up d = false
  unpowered : t.pwr.powered.hub = false ∧ t.pwr.powered.tile0 = false ∧ t.pwr.powered.tile1 = false
  request : t.pwr.request = 0
  cause : t.pwr.rstCause = c.pwr.rstCause ||| (1#32 <<< cause)
  regs : ∀ a, t.reg a = if blockDom a = .aon then c.reg a else regReset a
  memory : ∀ a, a < 0x21000000 → t.byte a = c.byte a
  strands : ∀ n : Fin 8, (t.strand n.val).run = .stopped
  events : t.ev.seq = c.ev.seq ∧ t.ev.queue = []
  latch : c.shelfReq = none → t.pwr.latch = c.pwr.latch ∧ t.pwr.fltEvt = c.pwr.fltEvt ∧
    t.pwr.cur = (if c.shelfUp then (if c.pwr.latch then .faultLatched else .standby) else c.pwr.cur)

end Sys2Proof.Claims

/-- Each source of a system reset: the key 0xD1E5 written to SWRST, RESET# low outside SHIP and the fuse load (with event
5), VIN back above 2.75 V after VIN low, and the same after a power-fail whose flush has ended. Any other value written
to SWRST has no effect. -/
def Obligations.system_reset_sources : Prop :=
  ∀ s : State, s.chip.Inv →
    (∀ m, MayWrite s m Reg.swrst → ∃ t, exec (.swrst m 0xD1E5) s = .next t ∧ AfterSystemReset s.chip t.chip 5) ∧
    (∀ m v, MayWrite s m Reg.swrst → v ≠ 0xD1E5 → Does s (.swrst m v) (ok s.chip)) ∧
    (s.chip.pwr.powered.aon = true → s.chip.pwr.cur ≠ .ship → s.chip.pwr.pfail = false →
      s.chip.pwr.boot ≠ .fuseLoad → s.chip.raised = [] →
      ∃ t, exec .resetPin s = .next t ∧ AfterSystemReset s.chip t.chip 4 ∧ t.chip.pwr.resetLow = true ∧
        ∃ h ∈ t.chip.ev.held, h.ev = 5) ∧
    (∀ mv, s.chip.pwr.vinLow = true → s.chip.pwr.pfail = false → s.chip.booted = true →
      ∃ t, exec (.vinLowRecovery mv) s = .next t ∧ AfterSystemReset s.chip t.chip 2 ∧ t.chip.pwr.vinMv = mv) ∧
    (∀ mv, s.chip.pwr.pfail = true → s.chip.pwr.pfFlush = false →
      ∃ t, exec (.powerFailRecovery mv) s = .next t ∧ AfterSystemReset s.chip t.chip 3 ∧ t.chip.pwr.pfail = false)

/-- AON rising clears AON's own state, sets POR alone in RSTCAUSE and starts the fuse load; AON falling leaves the
shelf OFF and nothing powered; a brown-out leaves AON alone powered, the shelf OFF, RSTCAUSE.BOR set and the latch as
it was; VIN low stops the control period and drops a connected shelf to STANDBY; the warning raises event 1 as it
sets; VIO resets nothing. At power-fail, event 2 is raised and HUB, both tiles, AFE, IFC and SEQ are held in reset at
once, while the recorder, where it is ready, goes on to flush. -/
def Obligations.supplies_and_power_fail : Prop :=
  (∀ (s : State) (mv : Nat),
     (s.chip.pwr.powered.aon = false → Does s (.aonPowerOn mv) { s.chip with pwr := {
       vinMv := mv, vioGood := s.chip.pwr.vioGood, resetLow := s.chip.pwr.resetLow, powered := { aon := true },
       boot := .fuseLoad, bootAt := s.chip.now, rstCause := 1 } }) ∧
     (∃ t, exec (.aonPowerOff mv) s = .next t ∧ t.chip.pwr.cur = .off ∧ (∀ d, t.chip.up d = false) ∧
       t.chip.regs = [] ∧ t.chip.ev.seq = 0) ∧
     (s.chip.pwr.powered.aon = true → ∃ t, exec (.brownOut mv) s = .next t ∧ t.chip.pwr.cur = .off ∧
       t.chip.pwr.powered = { aon := true } ∧ t.chip.pwr.latch = s.chip.pwr.latch ∧
       t.chip.pwr.rstCause = s.chip.pwr.rstCause ||| 2#32 ∧ (∀ a, 0x20000000 ≤ a → a < 0x20040000 → t.chip.byte a = 0)) ∧
     (s.chip.pwr.powered.aon = true → s.chip.shelfReq = none → ∃ t, exec (.vinLow mv) s = .next t ∧
       t.chip.pwr.vinLow = true ∧ t.chip.periodRuns = false ∧
       t.chip.pwr.cur = (if s.chip.shelfUp then (if s.chip.pwr.latch then .faultLatched else .standby)
         else s.chip.pwr.cur)) ∧
     (s.chip.pwr.powered.aon = true →
       Does s (.vinWarning true mv) ({ s.chip with pwr.vinMv := mv, pwr.warn := true }.raise 1) ∧
       Does s (.vinWarning false mv) { s.chip with pwr.vinMv := mv, pwr.warn := false }) ∧
     (∀ good, Does s (.vioGoodChange good) { s.chip with pwr.vioGood := good })) ∧
  (∀ (s : State) (mv : Nat), s.chip.booted = true → s.chip.up .nvm = true → s.chip.recd.ready = true →
     ∃ t, exec (.powerFail mv) s = .next t ∧ t.chip.pwr.pfail = true ∧ t.chip.pwr.pfFlush = true ∧
       t.chip.recd.pfMode = true ∧ t.chip.up .hub = false ∧ t.chip.up .tile0 = false ∧ t.chip.up .tile1 = false ∧
       t.chip.up .afe = false ∧ t.chip.up .ifc = false ∧ t.chip.up .seq = false ∧ t.chip.up .nvm = true ∧
       (s.chip.up .sup = false → s.chip.raised = [] → ∃ h ∈ t.chip.ev.held, h.ev = 2))

/-- The boot's stages in their order: the fuse load copies the array into the shadow and waits for VIN; VIN above 2.75
V and RESET# released start the power and lock stage; its end brings up TGRID, SUP, NVM, SEQ, AFE and IFC, starts
strand 0 in the boot ROM and makes the shelf STANDBY, or FAULT-LATCHED while latched, or RECOVERY where the fuse reads
differed or recovery was asked for; a boot ROM that finds no loader goes to RECOVERY with cause 2; BOOTDONE's key ends
the boot with event 0, and any other value does nothing. The loader and a warm restart enter an application whose
image passes its checks, under plan S the image of slot 0: the strand's PC becomes the entry word of its header and
BOOTSTAT shows stage 3 with its slot; a warm restart sets WARM, starts SUP anew and looks at headers only. -/
def Obligations.boot_stages_and_loader : Prop :=
  (∀ s : State,
     (∀ differ, s.chip.pwr.boot = .fuseLoad → s.chip.pwr.vinGood = false →
       Does s (.fuseLoadDone differ) { s.chip with
         fuses.shadow := s.chip.fuses.array, pwr.fuseDiff := differ, pwr.boot := .waitVin,
         pwr.debugOff := (s.chip.fuses.array.getD 7 0).getLsbD 4 }) ∧
     (∀ mv, s.chip.pwr.boot = .waitVin → s.chip.pwr.powered.aon = true → s.chip.pwr.pfail = false →
       s.chip.pwr.resetLow = false → Does s (.vinLowRising mv) { s.chip with
         pwr.vinMv := mv, pwr.vinGood := true, pwr.vinLow := false, pwr.boot := .powerLock, pwr.bootAt := s.chip.now }) ∧
     (s.chip.pwr.boot = .waitVin → s.chip.pwr.vinGood = true → s.chip.pwr.pfail = false →
       Does s .resetRelease { s.chip with
         pwr.resetLow := false, pwr.boot := .powerLock, pwr.bootAt := s.chip.now }) ∧
     (∀ locked, s.chip.Inv → s.chip.pwr.boot = .powerLock →
       ∃ t, exec (.powerAndLockDone locked) s = .next t ∧
         (∀ d ∈ [Domain.tgrid, .sup, .nvm, .seq, .afe, .ifc], t.chip.up d = true) ∧
         (t.chip.strand 0).run = .ready ∧ (t.chip.strand 0).pc = 0x10000000 ∧ (t.chip.strand 0).priv = true ∧
         t.chip.pwr.wdtTicks = 0 ∧ t.chip.pwr.wdtRun = true ∧ t.chip.tg.locked = locked ∧
         t.chip.tg.fallback = !locked ∧
         t.chip.pwr.cur = (if s.chip.pwr.fuseDiff || s.chip.pwr.rcvReq then .recovery
           else if s.chip.pwr.latch then .faultLatched else .standby) ∧
         t.chip.pwr.rcvCause = (if s.chip.pwr.fuseDiff then 1 else if s.chip.pwr.rcvReq then 5 else 0)) ∧
     (s.chip.pwr.boot = .bootRom → s.chip.imageOk 0 0x10000 1 false = true →
       Does s .bootRomCheckDone { s.chip with pwr.boot := .loader, pwr.bootAt := s.chip.now, pwr.stage := 2 }) ∧
     (s.chip.pwr.boot = .bootRom → s.chip.imageOk 0 0x10000 1 false = false → s.chip.pwr.cur = .standby →
       ∃ t, exec .bootRomCheckDone s = .next t ∧ t.chip.pwr.cur = .recovery ∧ t.chip.pwr.rcvCause = 2 ∧
         t.chip.pwr.stage = 0xF) ∧
     (∀ m, MayWrite s m Reg.bootdone → s.chip.pwr.boot = .app → s.chip.pwr.wakeEvent = false →
       Does s (.bootdone m 0xB0D0) (ok ({ s.chip with pwr.boot := .done, pwr.stage := 4 }.raise 0))) ∧
     (∀ m, MayWrite s m Reg.bootdone → s.chip.pwr.boot = .app → s.chip.pwr.wakeEvent = true →
       Does s (.bootdone m 0xB0D0)
         (ok (({ s.chip with pwr.boot := .done, pwr.stage := 4, pwr.wakeEvent := false }.raise 0).raise 7))) ∧
     (∀ m v, MayWrite s m Reg.bootdone → v ≠ 0xB0D0 → Does s (.bootdone m v) (ok s.chip))) ∧
  (∀ s : State, s.chip.Inv → s.chip.planD = false → s.chip.bootNewest = none →
     (s.chip.pwr.boot = .loader → s.chip.imageOk 0x10000 0xE0000 0 false = true →
       ∃ t, exec .loaderDone s = .next t ∧ t.chip.pwr.boot = .app ∧ t.chip.pwr.stage = 3 ∧ t.chip.pwr.bootSlot = 0 ∧
         t.chip.pwr.warm = false ∧
         (t.chip.strand 0).pc = word (field (s.chip.flashBytes 0x10000 64) 0x18 4)) ∧
     (s.chip.pwr.boot = .loader → s.chip.imageOk 0x10000 0xE0000 0 false = false → s.chip.pwr.cur = .standby →
       ∃ t, exec .loaderDone s = .next t ∧ t.chip.pwr.cur = .recovery ∧ t.chip.pwr.rcvCause = 3) ∧
     (s.chip.pwr.boot = .warmRestart → s.chip.booted = true → s.chip.imageOk 0 0x10000 1 true = true →
       s.chip.imageOk 0x10000 0xE0000 0 true = true →
       ∃ t, exec .warmRestartDone s = .next t ∧ t.chip.pwr.boot = .app ∧ t.chip.pwr.warm = true ∧
         t.chip.up .sup = true ∧ t.chip.pwr.wdtTicks = 0 ∧ (t.chip.strand 0).run = .ready ∧
         (t.chip.strand 0).pc = word (field (s.chip.flashBytes 0x10000 64) 0x18 4)))

/-- The watchdog: a kick with the key returns its count to 0 and any other value does nothing; at TIMEOUT, and on a
DRST that names SUP alone, SUP alone is reset with event 3 and RSTCAUSE.WDT, the part waits for the warm restart, and
the power request, the shelf state, the tiles and the gate stay. DRST with its key resets what it names and is silent
on a wrong key; an AFE reset is refused with AFEREF unless the gate is OPEN or CHECK with its contacts open, an NVM
reset with NVMREF while a flush or program write is in progress; a domain held in reset comes back with
DOMAIN_POWERED. -/
def Obligations.watchdog_and_domain_resets : Prop :=
  (∀ (s : State) (m : Master), s.chip.Inv →
     (MayWrite s m Reg.wdtkick → Does s (.wdtkick m 0xC3A5) (ok { s.chip with pwr.wdtTicks := 0 })) ∧
     (∀ v, MayWrite s m Reg.wdtkick → v ≠ 0xC3A5 → Does s (.wdtkick m v) (ok s.chip)) ∧
     (∀ i, (i = .drst m 0xD1E50040 ∧ MayWrite s m Reg.drst) ∨
         (i = .watchdogExpiry ∧ s.chip.pwr.wdtRun = true ∧ s.chip.up .sup = true) →
       ∃ t, exec i s = .next t ∧ t.chip.up .sup = false ∧ t.chip.pwr.boot = .warmRestart ∧
         t.chip.pwr.rstCause = s.chip.pwr.rstCause ||| 0x80#32 ∧ t.chip.pwr.request = s.chip.pwr.request ∧
         t.chip.pwr.cur = s.chip.pwr.cur ∧ t.chip.tiles = s.chip.tiles ∧ t.chip.gate = s.chip.gate ∧
         t.chip.hub = s.chip.hub ∧ (∀ n : Fin 8, (t.chip.strand n.val).run = .stopped) ∧
         ∃ h ∈ t.chip.ev.held, h.ev = 3)) ∧
  (∀ (s : State) (m : Master), s.chip.Inv → MayWrite s m Reg.drst →
     (∀ v, fld v 16 16 ≠ 0xD1E5 → Does s (.drst m v) (ok s.chip)) ∧
     (s.chip.pwr.powered.ifc = true → ∃ t, exec (.drst m 0xD1E50020) s = .next t ∧ t.chip.up .ifc = false ∧
       t.chip.hub = s.chip.hub ∧ t.chip.gate = s.chip.gate ∧
       (∀ a, blockDom a = .ifc → t.chip.reg a = regReset a)) ∧
     (s.chip.pwr.powered.afe = true → s.chip.gate.gst ≠ .open_ → s.chip.gate.gst ≠ .check →
       Does s (.drst m 0xD1E50008) (ok (s.chip.setBit Reg.pwrstat 9))) ∧
     (s.chip.pwr.powered.afe = true → s.chip.gate.gst = .open_ → s.chip.confbOpen = true →
       ∃ t, exec (.drst m 0xD1E50008) s = .next t ∧ t.chip.up .afe = false) ∧
     (s.chip.pwr.powered.nvm = true → s.chip.recd.flBusy = true →
       Does s (.drst m 0xD1E50010) (ok (s.chip.setBit Reg.pwrstat 10))) ∧
     (s.chip.booted = true → s.chip.up .ifc = false → s.chip.pwr.powered.ifc = true →
       ∃ t, exec (.domainPowered .ifc) s = .next t ∧ t.chip.up .ifc = true))

/-- PWRCTL: a domain asked for is powered, in the state its reset leaves, when its supply has settled; one no longer
asked for loses its power and the contents of its loop RAM; and a request to unpower HUB while a slot's last command
was other than OFF leaves it powered and requested, with HUBREF. Clearing a fault: with its key, a latch and no active
cause in GATE the latch and FLTEVT clear and the shelf leaves FAULT-LATCHED for STANDBY; without all three nothing
changes. Ship mode: with its key, from STANDBY with WAKE steadily low and the gate undriven, event 6 is raised and a
flush asked for; outside STANDBY the write is refused with REFUSED and NOTSTBY. WAKE in SHIP boots without a fuse
load, with RSTCAUSE.WAKE. -/
def Obligations.power_requests_fault_clear_and_ship : Prop :=
  (∀ (s : State) (m : Master) (v : Word), s.chip.Inv → MayWrite s m Reg.pwrctl →
     (v.getLsbD 0 = true → v.getLsbD 1 = true → v.getLsbD 2 = true →
       Does s (.pwrctlWrite m v) (ok { s.chip with pwr.request := 7, pwr.requestAt := s.chip.now })) ∧
     (v &&& 7 = 0 → s.chip.allOff = true → ∃ t, exec (.pwrctlWrite m v) s = .next t ∧ t.chip.pwr.request = 0 ∧
       t.chip.up .hub = false ∧ t.chip.up .tile0 = false ∧ t.chip.up .tile1 = false) ∧
     (v &&& 7 = 0 → s.chip.allOff = false → s.chip.pwr.request.getLsbD 0 = true →
       ∃ t, exec (.pwrctlWrite m v) s = .next t ∧ t.chip.pwr.request = 1 ∧ t.chip.hub = s.chip.hub ∧
         t.chip.up .hub = s.chip.up .hub ∧ t.chip.bit Reg.pwrstat 8 = true) ∧
     (s.chip.booted = true → s.chip.up .hub = false → s.chip.pwr.request.getLsbD 0 = true →
       Does s (.domainPowered .hub)
         { s.chip with pwr.powered := s.chip.pwr.powered.set .hub true, pwr.held := s.chip.pwr.held.set .hub false })) ∧
  (∀ (s : State) (m : Master),
     (MayWrite s m Reg.fltclr → s.chip.pwr.latch = true → s.chip.gate.cause = 0 → s.chip.periodRuns = false →
       s.chip.pwr.cur = .faultLatched → ∃ t, exec (.fltclr m 0xC1EA) s = .next t ∧ t.chip.pwr.latch = false ∧
         t.chip.pwr.fltEvt = 0 ∧ t.chip.pwr.cur = .standby ∧ t.chip.pwr.prev = .faultLatched) ∧
     (∀ v, MayWrite s m Reg.fltclr → (v ≠ 0xC1EA ∨ s.chip.pwr.latch = false ∨ s.chip.gate.cause ≠ 0) →
       Does s (.fltclr m v) (ok s.chip)) ∧
     (MayWrite s m Reg.shipctl → s.chip.pwr.cur = .standby → (s.chip.input 1).unstable = false →
       (s.chip.input 1).level = false → s.chip.inLevel 1 = false → s.chip.gate.gst = .open_ → s.chip.up .nvm = true →
       Does s (.shipctl m 0x5A1B)
         (ok ({ s.chip with pwr.shipping := true, recd.flReq := true, recd.shipFail := false }.raise 6))) ∧
     (MayWrite s m Reg.shipctl → s.chip.Inv → s.chip.pwr.cur ≠ .standby →
       ∃ t, exec (.shipctl m 0x5A1B) s = .next t ∧ t.chip.pwr = s.chip.pwr ∧
         t.chip.bit Reg.shipstat 0 = true ∧ t.chip.bit Reg.shipstat 1 = true) ∧
     (s.chip.pwr.cur = .ship → s.chip.pwr.boot = .off → s.chip.pwr.vinGood = true → s.chip.pwr.resetLow = false →
       s.chip.pwr.pfail = false → Does s .wake { s.chip with
         pwr.boot := .powerLock, pwr.bootAt := s.chip.now, pwr.wakeEvent := true,
         pwr.rstCause := s.chip.pwr.rstCause ||| 0x100#32 }))

/-! Chains and the hub (chapter 4). -/

/-- What reaches an end of a chain while the hub runs it: an uplink frame is kept for the deadline; the
downlink's arrival at end B of a whole chain is the loop-back; a lost lock is counted and stands until the deadline; a ranging mark gives half its unit intervals after
the first 160, and none within 1000 ticks gives 0xFFFF. -/
def Obligations.chain_arrivals : Prop :=
  ∀ (s : State) (i : Fin 8) (bs : List Byte), s.chip.up .hub = true →
    (s.chip.hub.running = true → (s.chip.chain i.val).en = true → s.chip.tg.instant = .uplink →
      (s.chip.chain i.val).frameA = none →
      Does s (.uplinkFrameArrival i .a bs) (s.chip.modChain i.val fun h =>
        { h with frameA := some (parseUplink (frameCtx i.val true s.chip.tg.perseq) bs) })) ∧
    (s.chip.hub.running = true → (s.chip.chain i.val).en = true → s.chip.tg.instant = .uplink →
      (s.chip.chain i.val).folded = true → (s.chip.chain i.val).frameB = none →
      Does s (.uplinkFrameArrival i .b bs) (s.chip.modChain i.val fun h =>
          { h with frameB := some (parseUplink (frameCtx i.val true s.chip.tg.perseq) bs) })) ∧
    (s.chip.hub.running = true → (s.chip.chain i.val).dlSent = true → (s.chip.chain i.val).folded = false →
      Does s (.downlinkEndBArrival i bs) (s.chip.modChain i.val fun h =>
        { h with lbNow := h.lbNow || sealOk (word h.dlCtx) bs })) ∧
    ((s.chip.chain i.val).lockA = true → Does s (.receiverLockChange i .a false)
      ((s.chip.count (Reg.cherr i.val) 16 16 1).modChain i.val fun h => { h with lockA := false, lostA := true })) ∧
    (∀ r t0 ui, (s.chip.chain i.val).ranging = some r → r.launch = some t0 → r.result = none → ui ≤ 4000 →
      Does s (.markArrival i ui) ((s.chip.elapseTick (t0 + (ui + 3) / 4)).modChain i.val fun h =>
        { h with ranging := some { r with result := some ((ui - 160 + 1) / 2) } })) ∧
    (∀ r t0, (s.chip.chain i.val).ranging = some r → r.launch = some t0 → r.result = none →
      Does s (.rngerr i) ((s.chip.elapseTick (t0 + 1000)).modChain i.val fun h =>
        { h with ranging := some { r with result := some 0xFFFF } }))

/-- HUB's commands. EN and HOLDREQ are stored, but EN is not cleared while a slot's last record was other than OFF. A
chain's control word is stored where its positions are at most 16, its turn position is not 15, no position that leaves
was sent other than OFF, and the longest chain keeps its length or still fits the period; FOLD that differs from the
chain's state then asks for the fold or unfold at a chord. A slot's type or loop moves only while it was last sent OFF. A
mailbox request is taken where none is in hand and its position is addressed. What is refused leaves its bit and nothing
more. -/
def Obligations.hub_commands : Prop :=
  ∀ (s : State) (m : Master) (i : Fin 8) (k : Fin 128) (v : Word),
    (MayWrite s m Reg.hubctl → (v.getLsbD 0 = true ∨ s.chip.allOff = true) →
      Does s (.hubEnable m v) (ok (s.chip.plainWrite Reg.hubctl v))) ∧
    (MayWrite s m Reg.hubctl → v.getLsbD 0 = false → s.chip.allOff = false →
      Does s (.hubEnable m v) (ok (s.chip.setBit Reg.hubstat 4))) ∧
    (MayWrite s m Reg.holdctl → Does s (.holdreqWrite m v) (ok (s.chip.plainWrite Reg.holdctl v))) ∧
    (MayWrite s m (Reg.chctl i.val) → fld v 4 5 ≤ 16 → fld v 12 4 ≠ 15 →
      (∀ p, p < 16 → fld v 4 5 ≤ p → p < s.chip.npos i.val → (s.chip.hslot (16 * i.val + p)).sentMode = 0) →
      (s.chip.chainLenWith i.val (v &&& 0xF1F1) = s.chip.chainLen ∨
        s.chip.lenOk (s.chip.chainLenWith i.val (v &&& 0xF1F1)) = true) →
      (v.getLsbD 1 = (s.chip.chain i.val).folded →
        Does s (.chctlWrite m i v) (ok (s.chip.setReg (Reg.chctl i.val) (v &&& 0xF1F1)))) ∧
      (v.getLsbD 1 = false → (s.chip.chain i.val).folded = true →
        Does s (.unfold m i v) (ok ((s.chip.setReg (Reg.chctl i.val) (v &&& 0xF1F1)).modChain i.val fun h =>
          { h with foldReq := some .unfold }))) ∧
      (v.getLsbD 1 = true → (s.chip.chain i.val).folded = false →
        Does s (.forcedFold m i v) (ok ((s.chip.setReg (Reg.chctl i.val) (v &&& 0xF1F1)).modChain i.val fun h =>
          { h with foldReq := some (.fold (fld v 12 4)) })))) ∧
    (MayWrite s m (Reg.chctl i.val) → (16 < fld v 4 5 ∨ fld v 12 4 = 15) →
      Does s (.chctlWrite m i v) (ok (s.chip.setBit (Reg.chstat i.val) 16))) ∧
    (MayWrite s m (Reg.slotcfg k.val) → fld v 0 4 = fld (s.chip.reg (Reg.slotcfg k.val)) 0 4 →
      Does s (.slotcfgWrite m k v) (ok (s.chip.plainWrite (Reg.slotcfg k.val) v))) ∧
    (MayWrite s m (Reg.slotcfg k.val) → fld v 0 4 ≠ fld (s.chip.reg (Reg.slotcfg k.val)) 0 4 →
      (s.chip.hslot k.val).sentMode ≠ 0 → Does s (.slotcfgWrite m k v) (ok (s.chip.setBit Reg.hubstat 4))) ∧
    (MayWrite s m Reg.mboxctl → v.getLsbD 24 = true → s.chip.hub.mboxBusy = false → fld v 8 3 < 4 →
      s.chip.bit (Reg.chctl (fld v 4 3)) 0 = true → fld v 0 4 < s.chip.npos (fld v 4 3) → s.chip.Inv →
      Does s (.mailboxGo m v) (ok { s.chip.plainWrite Reg.mboxctl v with
        hub.mboxBusy := true, hub.mboxSent := false })) ∧
    (MayWrite s m Reg.mboxctl → s.chip.hub.mboxBusy = true → Does s (.mailboxGo m v) (ok s.chip))

/-- The chord's record of a slot: six zero bytes, OFF, for a slot that is EMPTY or not admitted, whatever the source;
on a completed period the tile's command, on an overrun the record last sent; with MODE HOLDOVER in place of RUN or
BRAKE where the hub holds over; and in each case a current reference beyond the fused maximum is clamped to it. A
frame the hub seals passes its check under the same chain, direction and period, and the check covers its bytes: the
last four bytes of a sealed frame are the check of the others, least significant first. -/
def Obligations.chord_records_and_sealed_frames : Prop :=
  (∀ (c : Chip) (src : Source) (k : Nat),
     ((c.slotType k = 0 ∨ (c.hslot k).st ≠ .admitted) → c.recordFor src k = ([0, 0, 0, 0, 0, 0], false)) ∧
     (c.slotType k ≠ 0 → (c.hslot k).st = .admitted →
       (∀ t, c.recordFor (.tile t) k = c.clampRecord (c.byteList (loopRam t + 0x800 + 8 * k) 6)) ∧
       c.recordFor .hold k = c.clampRecord (c.hslot k).sent ∧
       c.recordFor .holdover k = c.clampRecord (holdoverRecord (c.hslot k).sent)) ∧
     (∀ r : List Byte, r.length = 6 → (r.getD 0 0).getLsbD 3 = false →
       let i := signed 24 (bytesVal ((r.drop 1).take 3))
       let j := signed 24 (bytesVal (((c.clampRecord r).1.drop 1).take 3))
       j = Min.min (c.fmax : Int) (Max.max (-(c.fmax : Int)) i) ∧
         (c.clampRecord r).1.getD 0 0 = r.getD 0 0 ∧ (c.clampRecord r).1.drop 4 = r.drop 4)) ∧
  (∀ (ctx : Word) (bs : List Byte), sealOk ctx (sealed ctx bs) = true ∧
     (sealed ctx bs).take bs.length = bs ∧
     bytesVal ((sealed ctx bs).drop bs.length) = (check (wordBytes ctx ++ bs)).toNat)

/-! Loops and tiles (chapters 5 and 9). -/

/-- A loop's configuration: a write is refused with CFGREF, and nothing more, where it changes a guarded field of an
enabled loop, asks of L0 for duty mode or of another loop for what L0 alone has, asks for feed-forward without duty
mode, or for feed-forward with a limit of 0. Otherwise it is stored: EN from 0 to 1 asks for a start at a deadline, EN
= 0 takes such a request back. A coefficient commit waits for a deadline. An injection asked for while none runs
starts at a deadline; a written 0 while one runs clears RUN alone. A capture with a good base starts at the first pair
of the first buffer; with a base that is no 64 KiB region of data SRAM it sets its error and does not start. -/
def Obligations.loop_configuration_and_injection : Prop :=
  (∀ (s : State) (m : Master) (n : Fin 4) (v : Word), s.chip.Inv → MayWrite s m (Reg.lnCfg n.val) →
     (s.chip.cfgRefused n.val v = true → Does s (.lncfgWrite m n v) (ok (s.chip.setBit Reg.loopstat 3))) ∧
     (s.chip.cfgRefused n.val v = false → v.getLsbD 0 = true → s.chip.loopEn n.val = true →
       Does s (.lncfgWrite m n v) (ok (s.chip.plainWrite (Reg.lnCfg n.val) v))) ∧
     (s.chip.cfgRefused n.val v = false → v.getLsbD 0 = true → s.chip.loopEn n.val = false →
       Does s (.loopEnable m n v) (ok ((s.chip.plainWrite (Reg.lnCfg n.val) v).modLoop n.val fun l =>
         { l with startReq := true, goalSet := false }))) ∧
     (s.chip.cfgRefused n.val v = false → v.getLsbD 0 = false →
       Does s (.loopDisable m n v) (ok ((s.chip.plainWrite (Reg.lnCfg n.val) v).modLoop n.val fun l =>
         { l with startReq := false }))) ∧
     (s.chip.cfgRefused n.val v = true ↔
       (s.chip.loopEn n.val = true ∧ (v ^^^ s.chip.reg (Reg.lnCfg n.val)) &&& 0x1F3F86 ≠ 0) ∨
       (n = 0 ∧ v.getLsbD 2 = true) ∨ (n ≠ 0 ∧ (v.getLsbD 4 = true ∨ v.getLsbD 5 = true)) ∨
       (v.getLsbD 6 = true ∧ (v.getLsbD 2 = false ∨ s.chip.reg (Reg.lnVffnom n.val) = 0 ∨
         s.chip.reg (Reg.lnVffmin n.val) = 0)))) ∧
  (∀ (s : State) (m : Master) (v : Word), s.chip.Inv →
     (MayWrite s m Reg.coefcmt → v.getLsbD 0 = true →
       Does s (.coefficientCommit m v) (ok { s.chip with loop.cpend := true })) ∧
     (MayWrite s m Reg.injctl → v.getLsbD 0 = true → s.chip.loop.inj.run = false → s.chip.bit Reg.injctl 0 = false →
       Does s (.injectionStart m v) (ok { s.chip.plainWrite Reg.injctl v with loop.inj.startReq := true })) ∧
     (MayWrite s m Reg.injctl → v.getLsbD 0 = false → s.chip.loop.inj.run = true →
       Does s (.injectionStop m v) (ok { s.chip.putFld Reg.injctl 0 1 0 with loop.inj.startReq := false })) ∧
     (MayWrite s m Reg.capctl → v.getLsbD 0 = true → s.chip.loop.inj.capRun = false →
       (s.chip.reg Reg.capbase = 0x20000000 ∨ s.chip.reg Reg.capbase = 0x20010000 ∨
         s.chip.reg Reg.capbase = 0x20020000 ∨ s.chip.reg Reg.capbase = 0x20030000) →
       ∃ t, exec (.captureStart m v) s = .next t ∧ t.chip.loop.inj.capRun = true ∧ t.chip.loop.inj.capPtr = 0 ∧
         t.chip.loop.inj.capBuf = 0 ∧ t.chip.loop.inj.capBase = (s.chip.reg Reg.capbase).toNat) ∧
     (MayWrite s m Reg.capctl → v.getLsbD 0 = true → s.chip.loop.inj.capRun = false →
       (s.chip.reg Reg.capbase).toNat % 65536 ≠ 0 →
       Does s (.captureStart m v) (ok ((s.chip.plainWrite Reg.capctl v).setBit Reg.capstat 6))))

/-- TILECTL and the load check. SWAP is kept for a chord in DUAL and refused with SWAPREF elsewhere; RESUME is kept in
HOLD. ARM starts the check of a tile that is up, not active and not being checked; its end makes the tile READY
exactly where the stored check matches the program's bytes, their parity is good and the worst case fits. A takeover's
mirror check is kept once. A check of Table 9.1 that fails on a running tile between deadline and chord stops its
engine in that tick, drops its mirror shadow, records the cause, and leaves the other tile as it is; the tile watchdog
does so with cause 5. At the chord, in DUAL with the other tile standby-ready, the failed tile is reset with RSTCAUSE
naming it and the other becomes active in a takeover whose first run has its mirror checked; without one the
controller holds and event 40 is raised. -/
def Obligations.tiles_and_takeover : Prop :=
  (∀ (s : State) (m : Master) (t : Fin 2), s.chip.Inv →
     (MayWrite s m Reg.tilectl → s.chip.fo.fo = .dual → ∃ u, exec (.swap m 2) s = .next u ∧
       u.chip.fo = { s.chip.fo with swapReq := true } ∧ u.chip.answer = .done) ∧
     (MayWrite s m Reg.tilectl → s.chip.fo.fo = .single → ∃ u, exec (.swap m 2) s = .next u ∧
       u.chip.fo = s.chip.fo ∧ u.chip.bit Reg.tilestat 8 = true) ∧
     (MayWrite s m Reg.tilectl → s.chip.fo.fo = .hold → ∃ u, exec (.resume m 4) s = .next u ∧
       u.chip.fo = { s.chip.fo with resumeReq := true }) ∧
     (MayWrite s m (Reg.tnArm t.val) → s.chip.up (tileDom t.val) = true → (s.chip.tile t.val).loadBusy = false →
       (s.chip.fo.fo = .hold ∨ s.chip.fo.act ≠ t) →
       Does s (.arm m t 1) (ok (s.chip.modTile t.val fun T => { T with loadBusy := true }))) ∧
     (s.chip.up .hub = true → (s.chip.tile t.val).loadBusy = true → s.chip.rf (Reg.tnPlen t.val) 0 14 ≤ 8192 →
       ∃ u, exec (.loadCheckDone t) s = .next u ∧ (u.chip.tile t.val).loadBusy = false ∧
         (u.chip.tile t.val).plen = s.chip.rf (Reg.tnPlen t.val) 0 14 ∧
         ((u.chip.tile t.val).loaded = true ↔
           s.chip.parityBad (loopRam t.val + 0x2000) (s.chip.rf (Reg.tnPlen t.val) 0 14) = false ∧
           check (s.chip.byteList (loopRam t.val + 0x2000) (s.chip.rf (Reg.tnPlen t.val) 0 14)) =
             s.chip.reg (Reg.tnPchk t.val)) ∧
         ((s.chip.tile t.val).ready = false → ((u.chip.tile t.val).ready = true ↔
           (u.chip.tile t.val).loaded = true ∧ s.chip.fo.wcs ≤ 4 * (s.chip.tg.chord - s.chip.tg.updl)))) ∧
     (s.chip.up .hub = true → s.chip.fo.fo = .takeover → s.chip.fo.firstRun = true → s.chip.fo.mirrorOk = none →
       Does s .mirrorCheckDone { s.chip with fo.mirrorOk := some (s.chip.mirrorMatches s.chip.fo.act.val) })) ∧
  ((∀ (s : State) (t : Fin 2) (k : Fin 8) (i : Instr), s.chip.Inv → s.chip.up .hub = true →
     (s.chip.tile t.val).running = true → s.chip.tg.instant = .deadline →
     (i = .tileSelfDiagnosisFailure t k ∨ (i = .tileWatchdog t ∧ k = 5)) →
     ∃ u, exec i s = .next u ∧ (u.chip.tile t.val).running = false ∧ (u.chip.tile t.val).failed = some k.val ∧
       (u.chip.tile t.val).shadow = [] ∧ u.chip.fo.lastCause = k.val ∧
       u.chip.tile (1 - t.val) = s.chip.tile (1 - t.val)) ∧
   (∀ (c : Chip) (t : Fin 2), c.Inv → c.fo.fo = .dual →
     ((c.tile (1 - t.val)).sby = true → (c.chordFailed t.val).fo.fo = .takeover ∧
       (c.chordFailed t.val).fo.act = 1 - t ∧ (c.chordFailed t.val).fo.firstRun = true ∧
       (c.chordFailed t.val).fo.mirrorOk = none ∧ (c.chordFailed t.val).tile t.val = {} ∧
       (c.chordFailed t.val).pwr.rstCause = c.pwr.rstCause ||| (1#32 <<< (9 + t.val)) ∧
       (c.chordFailed t.val).up (tileDom t.val) = false) ∧
     ((c.tile (1 - t.val)).sby = false → (c.chordFailed t.val).fo.fo = .hold ∧
       ∃ r ∈ (c.chordFailed t.val).raised, r.ev = 40)))

/-! Allocation, estimation and ageing (chapters 7, 8 and 9), temperatures (chapter 11). -/

/-- ALLOC and EST commands: a written seed also loads the generator, 0 as 1; the active tile's LnDTOT is kept as that
loop's target; a due rotation or shed delay is kept for the next allocation; a committed counter adjustment is pending
while the period runs, lands at once while it does not, and is refused while one is pending; EVRAISE raises events 87
to 91 with the slot as source; and FECHIP holds what the active tile writes. The charge of one deadline of an
estimated slot: the current of the latest record no more than three deadlines old, times the period, a charging
current scaled by the coulombic efficiency of its chemistry and truncated; the counter falls by it, and stops at the
limits of 64 bits with QSAT. The back end processes a chip it has not seen, once: its G then is the front end's, and a
second update without a new chip changes nothing. -/
def Obligations.allocation_estimation_and_charge : Prop :=
  (∀ (s : State) (m : Master) (v : Word),
     (MayWrite s m Reg.dseed → Does s (.dseedWrite m v) (ok { s.chip.plainWrite Reg.dseed v with
       alloc.gen := if fld v 0 15 = 0 then 1 else fld v 0 15 })) ∧
     (∀ n : Fin 4, MayWrite s m (Reg.lnDtot n.val) → Does s (.dtotWrite m n v) (ok
       { s.chip.plainWrite (Reg.lnDtot n.val) v with alloc.dtotSet := s.chip.alloc.dtotSet.set n.val true })) ∧
     (s.chip.up .hub = true → s.chip.rf Reg.rotiv 0 16 ≠ 0 →
       Does s .rotationDue { s.chip with alloc.rotDue := [true, true, true, true] }) ∧
     (∀ n : Fin 4, s.chip.up .hub = true → s.chip.alloc.shdTicks.getD n.val 0 ≠ 0 →
       Does s (.shdlyExpiry n) { s.chip with alloc.shdDue := s.chip.alloc.shdDue.set n.val true }) ∧
     (MayWrite s m Reg.qadjcmt → v.getLsbD 0 = true → s.chip.est.adj = none → s.chip.periodRuns = true →
       Does s (.qAdjustCommit m v) (ok { s.chip with est.adj := some (s.chip.rf Reg.qadjslot 0 7,
         signed 64 ((s.chip.reg Reg.qadjlo).toNat + 2 ^ 32 * (s.chip.reg Reg.qadjhi).toNat)) })) ∧
     (MayWrite s m Reg.qadjcmt → v.getLsbD 0 = true → s.chip.est.adj.isSome = true →
       Does s (.qAdjustCommit m v) (ok (s.chip.setBit Reg.eststat 1))) ∧
     (MayWrite s m Reg.evraise → fld v 0 5 ≤ 4 →
       Does s (.evraise m v) (ok (s.chip.raise (87 + fld v 0 5) (fld v 8 7)))) ∧
     (MayWrite s m Reg.evraise → 4 < fld v 0 5 → Does s (.evraise m v) (ok s.chip)) ∧
     (MayWrite s m Reg.fechip → Does s (.fechipWrite m v) (ok (s.chip.plainWrite Reg.fechip v)))) ∧
  (∀ (c : Chip) (k : Fin 128), c.Inv → c.est.slots.length = 128 →
     let i := if (c.hslot k.val).fresh = true ∨ (c.hslot k.val).age ≤ 3 then (c.hslot k.val).istg else 0
     let dq := if i < 0 then Int.tdiv (i * c.tg.period * (c.reg (Reg.etas (c.chem k.val))).toNat) 65536
       else i * c.tg.period
     let q := (c.eslotSt k.val).q - dq
     c.chargeStep k.val = dq ∧
     ((c.setQ k.val q).eslotSt k.val).q = Min.min (2 ^ 63 - 1) (Max.max (-2 ^ 63) q) ∧
     (q < -2 ^ 63 ∨ 2 ^ 63 - 1 < q → (c.setQ k.val q).bit Reg.eststat 2 = true) ∧
     (-2 ^ 63 ≤ q → q ≤ 2 ^ 63 - 1 → (c.setQ k.val q).regs = c.regs)) ∧
  (∀ s : State, s.chip.up .sup = true → s.chip.up .hub = true →
     (s.chip.rf Reg.fechip 0 16 = s.chip.est.backG → Does s .backEndChipUpdate s.chip) ∧
     (s.chip.rf Reg.fechip 0 16 ≠ s.chip.est.backG → s.chip.policyTile.isSome = true →
       ∃ t, exec .backEndChipUpdate s = .next t ∧ t.chip.est.backG = s.chip.rf Reg.fechip 0 16 ∧
         t.chip.est.restart = false ∧ t.chip.est.reload = false))

/-- The margin planner: a window of EVALN periods whose least slack misses its target by less than VCORE's room asks for
one step up with event 124, at once; the step lands at the next vertex and never leaves VFLOOR to VCEIL; VCORE settles
before the next window; a canary run's ticks are kept, the second ends the pair; and the hold after a failure ends. -/
def Obligations.margin_planner : Prop :=
  ∀ s : State, s.chip.up .hub = true →
    (s.chip.bit Reg.agectl 0 = true → s.chip.age.winOn = true → s.chip.age.periods ≠ 0 →
      s.chip.rf Reg.plancfg 0 16 = s.chip.age.periods → s.chip.window ≠ 0 → s.chip.age.vcore < s.chip.vceil →
      Nat.min 255 (256 * Nat.min s.chip.age.least s.chip.window / s.chip.window) <
        s.chip.slackTarget s.chip.dieBandSeen →
      ∃ t, exec .evaluationWindowEnd s = .next t ∧ t.chip.age.stepReq = 5 ∧ t.chip.age.winOn = false ∧
        t.chip.age.winMin = Nat.min 255 (256 * Nat.min s.chip.age.least s.chip.window / s.chip.window) ∧
        t.chip.age.low = 0 ∧ t.chip.age.high = 0) ∧
    (s.chip.vfloor ≤ s.chip.vceil → s.chip.age.stepReq ≠ 0 → s.chip.vfloor ≤ (s.chip.applyStep).age.vcore ∧
      (s.chip.applyStep).age.vcore ≤ s.chip.vceil ∧ (s.chip.applyStep).age.stepReq = 0 ∧
      (s.chip.applyStep).age.settling = true) ∧
    (s.chip.age.settling = true → Does s .vcoreSettled { s.chip with age.settling := false }) ∧
    (s.chip.age.inhibit = true → ∃ t, exec .inhibitExpiry s = .next t ∧ t.chip.age.inhibit = false ∧
      t.chip.tg.tick = (if s.chip.up .tgrid then Nat.max s.chip.tg.tick s.chip.age.inhAt else s.chip.tg.tick)) ∧
    (∀ k, s.chip.age.canRun = 1 → s.chip.age.canDone = false → s.chip.tg.instant = .deadline → k ≤ s.chip.window →
      ∃ t, exec (.canaryComplete k) s = .next t ∧ t.chip.age.can0 = k ∧ t.chip.age.canDone = true) ∧
    (∀ k, s.chip.age.canRun = 2 → s.chip.age.canDone = false → s.chip.tg.instant = .deadline → k ≤ s.chip.window →
      ∃ t, exec (.canaryComplete k) s = .next t ∧ t.chip.age.can1 = k ∧ t.chip.age.canAge = some 0)

/-- THERM's commands: a written external temperature is valid until 2 s after the write; limits that do not rise strictly
are refused with CFGREF and change nothing; ones in BROKENi re-admit those slots' sources and no other; a die conversion
takes the higher of the sensors that read in range, 0x7FFF where neither does, and raises event 83 once for a broken one;
and the end of a rate-of-rise window takes each enabled slot's temperature as the next window's start. -/
def Obligations.thermal_commands : Prop :=
  ∀ (s : State) (m : Master) (k : Fin 128) (v : Word), s.chip.Inv →
    (MayWrite s m (Reg.extt k.val) → Does s (.exttWrite m k v)
      (ok ((s.chip.plainWrite (Reg.extt k.val) v).modTherm k.val fun t =>
        { t with exttOk := true, exttAt := s.chip.now }))) ∧
    (s.chip.up .hub = true → (s.chip.tslotSt k.val).exttOk = true → s.chip.therm.slots.length = 128 →
      ∃ t, exec (.exttValidExpiry k) s = .next t ∧ (t.chip.tslotSt k.val).exttOk = false ∧
        t.chip.now = Nat.max s.chip.now ((s.chip.tslotSt k.val).exttAt + 200000000)) ∧
    (∀ p : Fin 4, MayWrite s m (Reg.ppLim p.val) →
      (rising3 v = true → Does s (.plimWrite m p v) (ok (s.chip.plainWrite (Reg.ppLim p.val) v))) ∧
      (rising3 v = false → Does s (.plimWrite m p v) (ok (s.chip.setBit Reg.thstat 1)))) ∧
    (∀ i : Fin 4, MayWrite s m (Reg.broken i.val) → s.chip.therm.slots.length = 128 →
      ∃ t, exec (.brokenReadmit m i v) s = .next t ∧ ∀ j : Fin 128,
        (j.val / 32 = i.val → v.getLsbD (j.val % 32) = true →
          (t.chip.tslotSt j.val).brkS = false ∧ (t.chip.tslotSt j.val).brkC = false ∧
          (t.chip.tslotSt j.val).brkE = false) ∧
        (¬(j.val / 32 = i.val ∧ v.getLsbD (j.val % 32) = true) → t.chip.tslotSt j.val = s.chip.tslotSt j.val)) ∧
    (∀ a b : Int, s.chip.up .hub = true → s.chip.up .afe = true → s.chip.adc.settled = true →
      s.chip.adcEn 0 = true → s.chip.adcEn 1 = true →
      ∃ t, exec (.dieConversion a b) s = .next t ∧ t.chip.therm.s0 = a ∧ t.chip.therm.s1 = b ∧
        (dieOk a = true → dieOk b = true → t.chip.therm.die = Max.max a b ∧ t.chip.therm.dieBrk = false) ∧
        (dieOk a = true → dieOk b = false → t.chip.therm.die = a ∧ t.chip.therm.dieBrk = true) ∧
        (dieOk a = false → dieOk b = false → t.chip.therm.die = 0x7FFF ∧ t.chip.therm.dieBrk = true)) ∧
    (s.chip.up .hub = true → s.chip.bit Reg.thctl 0 = true → s.chip.tsEn k.val = true →
      s.chip.therm.slots.length = 128 →
      ∃ t, exec .rorWindowEnd s = .next t ∧ (t.chip.tslotSt k.val).ror0 = (s.chip.tslotSt k.val).tst ∧
        t.chip.therm.rorAt = t.chip.now)

/-! The rail sequencer (chapters 12 and 13). -/

/-- SEQ's register commands. With the key 0x5E9C and no program running, RUNSTART starts one at STARTENT and RUNSHUT one
at SHUTENT, as the shutdown program; while one runs a start is refused with CMDREF and STOP ends it with the rails as
they are; a wrong key does nothing. RAILCMD, only while no program runs, takes an OFF rail to RISING with its rise window
and a GOOD one to FALLING; RAILCLR takes a LATCHED rail to OFF. SYNCSET loads SYNCST but not while a SYNC step waits. Step
memory is written only while no program runs, else MEMREF. Clearing EN ends the program; setting AUXEN takes the auxiliary
input as good. -/
def Obligations.sequencer_commands : Prop :=
  ∀ (s : State) (m : Master) (n : Fin 16) (v : Word), s.chip.Inv →
    (MayWrite s m Reg.seqcmd → s.chip.seq.run = false → s.chip.seqEn = true →
      Does s (.runstart m 0x5E9C0001) (ok { s.chip with
        seq := { s.chip.seq with run := true, inShut := false, wait := .none, pc := s.chip.rf Reg.seqent 0 9 } }) ∧
      Does s (.runshut m 0x5E9C0002) (ok { s.chip with
        seq := { s.chip.seq with run := true, inShut := true, wait := .none, pc := s.chip.rf Reg.seqent 16 9 } })) ∧
    (MayWrite s m Reg.seqcmd → s.chip.seq.run = true →
      Does s (.runstart m 0x5E9C0001) (ok (s.chip.setBit Reg.seqstat 8)) ∧
      Does s (.runshut m 0x5E9C0002) (ok (s.chip.setBit Reg.seqstat 8)) ∧
      Does s (.stop m 0x5E9C0004) (ok { s.chip with
        seq := { s.chip.seq with run := false, inShut := false, wait := .none } })) ∧
    (MayWrite s m Reg.seqcmd → fld v 16 16 ≠ 0x5E9C → Does s (.runstart m v) (ok s.chip)) ∧
    (MayWrite s m Reg.railcmd → s.chip.seq.run = true → Does s (.railcmd m v) (ok (s.chip.setBit Reg.seqstat 8))) ∧
    (MayWrite s m Reg.railcmd → s.chip.seq.run = false → (s.chip.rail n.val).driven = true →
      (s.chip.rail n.val).st = .off → (s.chip.rail n.val).pgq = false →
      Does s (.railcmd m (1#32 <<< n.val)) (ok (s.chip.modRail n.val fun r =>
        { r with st := .rising, riseAt := some s.chip.now, chat := 0, retries := 0 }))) ∧
    (MayWrite s m Reg.railcmd → s.chip.seq.run = false → (s.chip.rail n.val).st = .good → s.chip.dchch n.val ≠ 31 →
      Does s (.railcmd m (1#32 <<< (16 + n.val))) (ok (s.chip.modRail n.val fun r =>
        { r with st := .falling, dchAt := s.chip.now, riseAt := none, toLatch := false }))) ∧
    (MayWrite s m Reg.railclr → (s.chip.rail n.val).st = .latched →
      Does s (.railclr m (1#32 <<< n.val)) (ok (s.chip.modRail n.val fun r => { r with st := .off }).seqPoll)) ∧
    (MayWrite s m Reg.syncset → s.chip.seq.syncWaits = false →
      Does s (.syncset m v) (ok { s.chip with seq.syncSt := fld v 0 8 })) ∧
    (MayWrite s m Reg.syncset → s.chip.seq.syncWaits = true → Does s (.syncset m v) (ok s.chip)) ∧
    (∀ i : Fin 512, MayWrite s m (Reg.stepMem i.val) →
      (s.chip.seq.run = false → Does s (.stepMemoryWrite m i v) (ok (s.chip.plainWrite (Reg.stepMem i.val) v))) ∧
      (s.chip.seq.run = true → Does s (.stepMemoryWrite m i v) (ok (s.chip.setBit Reg.seqstat 9)))) ∧
    (MayWrite s m Reg.seqctl → s.chip.seq.syncWaits = false →
      Does s (.seqctlWrite m 0) (ok { s.chip.plainWrite Reg.seqctl 0 with
        seq := { s.chip.seq with run := false, inShut := false, wait := .none } })) ∧
    (MayWrite s m Reg.seqctl → s.chip.reg Reg.seqctl = 1 → s.chip.seq.wait = .none →
      (∀ k : Fin 16, s.chip.bit (Reg.rnCfg k.val) 0 = false ∨ (s.chip.rail k.val).driven = true) →
      Does s (.seqctlWrite m 5) (ok { s.chip.plainWrite Reg.seqctl 5 with
        seq := { s.chip.seq with
          auxGood := true, auxLow := 0, auxHiAt := none, auxLast := s.chip.now, auxStale := false,
          auxRe := false } }))

/-- A rail's transitions, each in the tick its timer gives, and after each a waiting CHECK is decided: RISING with PG
qualified good in time is GOOD; a rise window that ends, and a GOOD rail whose PG qualifies not good, start the fault
timer with event 64 + n and FLTSEEN; a fault timer's end makes an ignoring rail RISE without a window and a retrying one
wait in RETRY; RETRY's end starts a new rise window; a discharged rail is OFF, or LATCHED where it is the failed rail of a
shutdown; and at DCHTMO it counts as discharged with event 94 and DTMO. -/
def Obligations.rail_transitions : Prop :=
  ∀ (s : State) (n : Fin 16), s.chip.up .seq = true → s.chip.Inv →
    ((s.chip.rail n.val).pgLevel = true → (s.chip.rail n.val).pgq = false → (s.chip.rail n.val).st = .rising →
      (s.chip.rail n.val).riseAt = none → Does s (.pgQualified n)
        (((s.chip.elapseTo ((s.chip.rail n.val).pgSince + s.chip.qualTicks n.val)).modRail n.val fun r =>
          { r with pgq := r.pgLevel, pgChg := false }).modRail n.val fun r => { r with st := .good }).seqPoll) ∧
    ((s.chip.rail n.val).pgLevel = false → (s.chip.rail n.val).pgq = true → (s.chip.rail n.val).st = .good →
      Does s (.pgQualified n)
        (((s.chip.elapseTo ((s.chip.rail n.val).pgSince + s.chip.qualTicks n.val)).modRail n.val fun r =>
          { r with pgq := r.pgLevel, pgChg := false }).railFault n.val).seqPoll) ∧
    (∀ t, (s.chip.rail n.val).st = .rising → (s.chip.rail n.val).riseAt = some t →
      Does s (.riseWindowExpiry n) ((s.chip.elapseTo (t + s.chip.riseTicks n.val)).railFault n.val).seqPoll) ∧
    (∀ t, s.chip.seq.rails.length = 16 → ((s.chip.elapseTo t).railFault n.val).rail n.val =
      { s.chip.rail n.val with
        st := .fault, faultAt := some (Nat.max s.chip.now t), riseAt := none,
        react := s.chip.rf (Reg.rnCfg n.val) 4 2, nretry := s.chip.rf (Reg.rnCfg n.val) 12 4,
        grp := s.chip.rf (Reg.rnCfg n.val) 16 16 } ∧
      ∃ r ∈ ((s.chip.elapseTo t).railFault n.val).raised, r.ev = 64 + n.val ∧ r.src = n.val) ∧
    (∀ t, (s.chip.rail n.val).st = .fault → (s.chip.rail n.val).faultAt = some t →
      (∀ k : Fin 16, k ≠ n → (s.chip.rail k.val).faultAt = none) →
      ((s.chip.rail n.val).react = 0 → (s.chip.rail n.val).pgq = false → Does s (.faultTimerEnd n)
        (((s.chip.elapseTo (t + s.chip.rf (Reg.rnQual n.val) 16 8 * 1000)).modRail n.val fun r =>
          { r with faultAt := none }).modRail n.val fun r => { r with st := .rising, riseAt := none }).seqPoll) ∧
      ((s.chip.rail n.val).react = 1 → (s.chip.rail n.val).retries < (s.chip.rail n.val).nretry →
        Does s (.faultTimerEnd n)
          (((s.chip.elapseTo (t + s.chip.rf (Reg.rnQual n.val) 16 8 * 1000)).modRail n.val fun r =>
            { r with faultAt := none }).modRail n.val fun r =>
            { r with
              st := .retry
              retryAt := Nat.max s.chip.now (t + s.chip.rf (Reg.rnQual n.val) 16 8 * 1000) }).seqPoll) ∧
      ((s.chip.rail n.val).react = 3 → ∃ u, exec (.faultTimerEnd n) s = .next u ∧
        AfterSystemReset (s.chip.elapseTo (t + s.chip.rf (Reg.rnQual n.val) 16 8 * 1000)) u.chip 6)) ∧
    ((s.chip.rail n.val).st = .retry → (s.chip.rail n.val).pgq = false → ∃ t,
      t = Nat.max s.chip.now ((s.chip.rail n.val).retryAt + orOne (s.chip.rf (Reg.rnQual n.val) 24 8) * 1000000) ∧
      Does s (.retryoffExpiry n) ((s.chip.elapseTo t).modRail n.val fun r =>
        { r with st := .rising, riseAt := some t, retries := r.retries + 1 }).seqPoll) ∧
    ((s.chip.rail n.val).st = .falling → (s.chip.rail n.val).toLatch = false → Does s (.discharged n)
      (s.chip.modRail n.val fun r => { r with st := .off, toLatch := false }).seqPoll) ∧
    ((s.chip.rail n.val).st = .falling → (s.chip.rail n.val).toLatch = true → Does s (.discharged n)
      (s.chip.modRail n.val fun r => { r with st := .latched, toLatch := false }).seqPoll) ∧
    ((s.chip.rail n.val).st = .falling → (s.chip.rail n.val).toLatch = false → Does s (.dchtmoExpiry n)
      (((((s.chip.elapseTo ((s.chip.rail n.val).dchAt + orOne (s.chip.rf (Reg.rnTim n.val) 16 16) * 100000)).setBit
        (Reg.rnStat n.val) 18).setBit Reg.fltrail (16 + n.val)).raise 94 n.val).modRail n.val fun r =>
        { r with st := .off, toLatch := false }).seqPoll)

/-- What each kind of step word does when the program reaches it: EN applies its enables and goes on; WAIT waits its
microseconds; CHECK waits and is decided at once where it can be; JUMP goes to its target or on; SYNC goes on where
its state is reached or SYNCEN is 0, waits for the next state's rise, and faults with cause 4 otherwise; END ends the
program with event 93; a reserved word faults with cause 1, a rail not driven with cause 3, a target above 511 with
cause 2. What ends a waiting step and what the auxiliary and SYNC inputs do: a WAIT and a CHECK end by their time, the
CHECK at its target; a SYNC step's time ends it at its target with event 92 and SYNCTO; a qualified rise after a
qualified low counts SYNCST and ends a step that waits for it; a lost auxiliary input raises event 8 and starts the
shutdown program where it does not run; a good one raises event 9; no result for 10 000 ticks sets AUXSTALE. -/
def Obligations.sequence_steps_and_inputs : Prop :=
  (∀ s : State, s.chip.seqReady = true → s.chip.seq.pc < 511 →
     (∀ on mask, seqDecode s.chip.stepWord = some (.en on mask) →
       (s.chip.unowned mask = false → Does s .seqEn
         ((railsOf mask).foldl (fun c n => if on then c.railOn n else c.railOff n) s.chip).seqNext) ∧
       (s.chip.unowned mask = true → Does s .seqEn (s.chip.programFault 3))) ∧
     (∀ us, seqDecode s.chip.stepWord = some (.wait us) →
       Does s .seqWait { s.chip with seq.wait := .time (s.chip.now + us * 100) }) ∧
     (∀ down k mask target, seqDecode s.chip.stepWord = some (.check down k mask target) → s.chip.unowned mask = false →
       Does s .seqCheck { s.chip with
         seq.wait := .check down mask
           (if tcodeMs k = 0 then none else some (s.chip.now + tcodeMs k * 100000)) target }.seqPoll) ∧
     (∀ k f target, seqDecode s.chip.stepWord = some (.jump k f target) → target ≤ 511 →
       Does s .seqJump { s.chip with
         seq := { s.chip.seq with
           wait := .none
           pc := if k = 0 ∨ (k = 1 ∧ s.chip.seq.auxGood = true) ∨ (k = 2 ∧ s.chip.bit Reg.swflag f = true) ∨
             (k = 3 ∧ s.chip.bit Reg.swflag f = false) then target else s.chip.seq.pc + 1 } }) ∧
     (∀ k f target, seqDecode s.chip.stepWord = some (.jump k f target) → k = 0 → 511 < target →
       Does s .seqJump (s.chip.programFault 2)) ∧
     (∀ x target, seqDecode s.chip.stepWord = some (.sync x target) →
       ((s.chip.bit Reg.seqctl 1 = false ∨ x = s.chip.seq.syncSt) → Does s .seqSync { s.chip with
         seq := { s.chip.seq with pc := s.chip.seq.pc + 1, wait := .none } }) ∧
       (s.chip.bit Reg.seqctl 1 = true → x = (s.chip.seq.syncSt + 1) % 256 → x ≠ s.chip.seq.syncSt →
         Does s .seqSync { s.chip with
           seq.wait := .sync x (if s.chip.rf Reg.synccfg 0 16 = 0 then none
             else some (s.chip.now + s.chip.rf Reg.synccfg 0 16 * 100000)) target }) ∧
       (s.chip.bit Reg.seqctl 1 = true → x ≠ (s.chip.seq.syncSt + 1) % 256 → x ≠ s.chip.seq.syncSt →
         Does s .seqSync (s.chip.programFault 4))) ∧
     (seqDecode s.chip.stepWord = some .end_ → s.chip.seq.inShut = false →
       Does s .seqEnd ({ s.chip with
         seq := { s.chip.seq with run := false, inShut := false, wait := .none } }.raise 93)) ∧
     (seqDecode s.chip.stepWord = none → Does s .reservedStepWord (s.chip.programFault 1))) ∧
  (∀ s : State, s.chip.up .seq = true → s.chip.Inv →
     (∀ due, s.chip.seq.wait = .time due → s.chip.seq.pc < 511 → Does s .waitExpiry { s.chip.elapseTo due with
         seq := { s.chip.seq with pc := s.chip.seq.pc + 1, wait := .none } }) ∧
     (∀ d k due target, s.chip.seq.wait = .check d k (some due) target → target ≤ 511 →
       Does s .checkTimeout { s.chip.elapseTo due with seq := { s.chip.seq with pc := target, wait := .none } }) ∧
     (∀ x due target, s.chip.seq.wait = .sync x (some due) target → target ≤ 511 →
       Does s .syncTimeout { ((s.chip.elapseTo due).setBit Reg.seqstat 10).raise 92 with
         seq := { s.chip.seq with pc := target, wait := .none } }) ∧
     (s.chip.syncOn = true → s.chip.seq.lineLo = true → s.chip.seq.wait = .none →
       Does s .syncRise { s.chip with
         seq := { s.chip.seq with
           lineHi := true, lineLo := false,
           lastRise := some s.chip.now, syncSt := (s.chip.seq.syncSt + 1) % 256 } }) ∧
     (∀ due target, s.chip.syncOn = true → s.chip.seq.lineLo = true → s.chip.seq.pc < 511 →
       s.chip.seq.wait = .sync ((s.chip.seq.syncSt + 1) % 256) due target →
       Does s .syncRise { s.chip with
         seq := { s.chip.seq with
           lineHi := true, lineLo := false,
           lastRise := some s.chip.now, syncSt := (s.chip.seq.syncSt + 1) % 256, wait := .none,
           pc := s.chip.seq.pc + 1 } }) ∧
     (Does s .syncQualifiedLow { s.chip with seq.lineLo := true, seq.lineHi := false }) ∧
     (∀ t, s.chip.syncOn = true → s.chip.seq.lastRise = some t → s.chip.now < t + 300 →
       Does s .syncPulseTimer (s.chip.elapseTo (t + 300))) ∧
     (∀ t, s.chip.syncOn = true → s.chip.seq.lastRise = some t → t + 300 ≤ s.chip.now → s.chip.now < t + 400 →
       Does s .syncPulseTimer (s.chip.elapseTo (t + 400))) ∧
     (s.chip.auxOn = true → s.chip.seq.auxGood = true → s.chip.seq.inShut = false →
       Does s .auxiliaryLost ({ s.chip with
         seq := { s.chip.seq with
           auxGood := false, auxRe := false, run := true, inShut := true, wait := .none,
           pc := s.chip.rf Reg.seqent 16 9 } }.raise 8)) ∧
     (s.chip.auxOn = true → s.chip.seq.auxGood = true → s.chip.seq.inShut = true →
       Does s .auxiliaryLost ({ s.chip with seq.auxGood := false, seq.auxRe := false }.raise 8)) ∧
     (∀ t, s.chip.auxOn = true → s.chip.seq.auxGood = false → s.chip.seq.auxRe = false → s.chip.seq.auxHiAt = some t →
       Does s .auxiliaryGood { (s.chip.elapseTo (t + orOne (s.chip.rf Reg.auxcfg 8 8) * 100000)).raise 9 with
         seq := { s.chip.seq with auxGood := true, auxRe := false } }) ∧
     (s.chip.auxOn = true → s.chip.seq.auxStale = false →
       Does s .auxiliaryStale { s.chip.elapseTo (s.chip.seq.auxLast + 10000) with
         seq := { s.chip.seq with auxStale := true } }))

/-! Strands, events, conditioned inputs and counters (chapter 14). -/

/-- STRCMD with its key: a START of a STOPPED strand makes it READY at its SnPC, at privileged level, with its
predicates and control registers cleared, its vector at the boot ROM and undefined words in g1 to g15; a STOP of one
that runs stops it; a START of one that runs and a STOP of a STOPPED one set CMDREF and do nothing more; a wrong key
does nothing. Issue: a strand that has held it for QUANT ticks, 0 read as 1, gives it to the READY strand that follows
it at its effective priority, or keeps it where there is none. A READY strand that has starved for its limit while
another held issue is promoted to 6 with event 126, and takes issue from a holder of 6 or less. -/
def Obligations.strand_start_issue_and_promotion : Prop :=
  (∀ (s : State) (m : Master) (n : Fin 8) (v : Word), s.chip.Inv → MayWrite s m Reg.strcmd →
     ((s.chip.strand n.val).run = .stopped → Does s (.start m (0x57A70000 ||| (1#32 <<< n.val)))
       (ok { s.chip.modStrand n.val fun x =>
           { run := .ready, g := s.chip.freeRegs, p := [false, false, false, false], pc := s.chip.reg (Reg.snPc n.val),
             priv := true, ppriv := false, epc := 0, ecause := 0, eaddr := 0, tvec := 0x10000000, eval := 0, scr := 0,
             wakePri := 0, promo := false, exc := x.exc, starv := 0 } with
         freeIx := s.chip.freeIx + 15 })) ∧
     ((s.chip.strand n.val).run ≠ .stopped → Does s (.start m (0x57A70000 ||| (1#32 <<< n.val)))
       (ok (s.chip.setBit Reg.strstat 16))) ∧
     ((s.chip.strand n.val).run ≠ .stopped →
       ∃ t, exec (.strandStop m (0x57A70000 ||| (0x100#32 <<< n.val))) s = .next t ∧
         (t.chip.strand n.val).run = .stopped ∧ t.chip.issue.holder ≠ some n ∧ t.chip.answer = .done) ∧
     ((s.chip.strand n.val).run = .stopped → Does s (.strandStop m (0x57A70000 ||| (0x100#32 <<< n.val)))
       (ok (s.chip.setBit Reg.strstat 16))) ∧
     (fld v 16 16 ≠ 0x57A7 → Does s (.start m v) (ok s.chip) ∧ Does s (.strandStop m v) (ok s.chip))) ∧
  (∀ (s : State) (n : Fin 8), s.chip.Inv → s.chip.up .sup = true →
     (s.chip.issue.holder = some n →
       ∃ t, exec .quantumExpiry s = .next t ∧
         t.chip.now = Nat.max s.chip.now (s.chip.issue.since + orOne (s.chip.rf Reg.quant 0 16)) ∧
         t.chip.issue.since = t.chip.now ∧
         t.chip.issue.holder = (if (s.chip.nextReady n.val).isSome then s.chip.nextReady n.val else some n)) ∧
     ((s.chip.strand n.val).run = .ready → s.chip.rf (Reg.snCtl n.val) 16 16 ≠ 0 → s.chip.effPrio n.val < 6 →
       s.chip.issue.holder ≠ some n →
       ∃ t, exec (.starvationPromotion n) s = .next t ∧ (t.chip.strand n.val).promo = true ∧
         (∃ r ∈ (s.chip.promote n.val).raised, r.ev = 126 ∧ r.src = n.val) ∧
         ((∀ h, s.chip.issue.holder = some h → s.chip.effPrio h.val ≤ 6) →
           t.chip.issue.holder = some n ∧ (t.chip.strand n.val).starv = 0)))

/-- A write to SWEV raises event 15, or 111 with bit 0 set, with its upper half as the source. -/
def Obligations.software_events : Prop :=
  ∀ (s : State) (m : Master) (v : Word), MayWrite s m Reg.swev →
    (v.getLsbD 0 = false → Does s (.swev m v) (ok (s.chip.raise 15 (fld v 16 16)))) ∧
    (v.getLsbD 0 = true → Does s (.swev m v) (ok (s.chip.raise 111 (fld v 16 16))))

/-- An event whose route queues it enters the event queue behind those that wait while fewer than 32 do; else it is
lost and LOST counts it, up to 0xFFFF. Either way its EVPEND bit is set and no other changes. POP removes the head of
the event queue and no other entry, CLRLOST clears LOST; a write with neither does nothing. -/
def Obligations.event_queue : Prop :=
  (∀ (c : Chip) (e : Event), c.Inv → e.ev < 128 →
     (∀ k, k < 128 → (c.enqueue e).ev.pend.getLsbD k = (c.ev.pend.getLsbD k || decide (k = e.ev))) ∧
     (c.ev.queue.length < 32 → (c.enqueue e).ev.queue = c.ev.queue ++ [e] ∧ (c.enqueue e).ev.lost = c.ev.lost) ∧
     (32 ≤ c.ev.queue.length → (c.enqueue e).ev.queue = c.ev.queue ∧
       (c.enqueue e).ev.lost = Nat.min 0xFFFF (c.ev.lost + 1) ∧ (c.enqueue e).bit Reg.strstat 17 = true)) ∧
  (∀ (s : State) (m : Master) (v : Word), MayWrite s m Reg.evqpop →
     (v.getLsbD 0 = true → v.getLsbD 1 = false →
       Does s (.evqpop m v) (ok { s.chip with ev.queue := s.chip.ev.queue.tail })) ∧
     (v.getLsbD 0 = false → v.getLsbD 1 = true → Does s (.lostClear m v) (ok { s.chip with ev.lost := 0 })) ∧
     (v.getLsbD 0 = true → v.getLsbD 1 = true →
       Does s (.lostClear m v) (ok { s.chip with ev := { s.chip.ev with queue := s.chip.ev.queue.tail, lost := 0 } })) ∧
     (v.getLsbD 0 = false → v.getLsbD 1 = false → Does s (.evqpop m v) (ok s.chip)))

/-- A conditioned input of Table 14.3 while IFC is up: a qualified level is what blocks see, and a GPIO pin's edge sets its
bit of GPEVST; more than TMAX edges in a window declare it unstable with event 13 and it shows its safe meaning; a window's
end clears the count, and the fourth quiet window the declaration; a level held at STKLVL for the stuck time declares it
stuck; and a write of INCFGi starts the window anew. -/
def Obligations.conditioned_inputs : Prop :=
  ∀ (s : State) (i : Fin 32) (lv : Bool) (k : Nat), s.chip.Inv → inputUsed i.val = true → s.chip.up .ifc = true →
    ((s.chip.input i.val).unstable = false → (s.chip.tmax i.val = 0 ∨ (s.chip.input i.val).edges + k ≤ s.chip.tmax i.val) →
      ∃ t, exec (.inputQualified i lv k) s = .next t ∧ t.chip.inLevel i.val = lv ∧ (t.chip.input i.val).raw = lv ∧
        (t.chip.input i.val).edges = (s.chip.input i.val).edges + k ∧
        (∀ j, j ≠ i.val → t.chip.input j = s.chip.input j) ∧
        (4 ≤ i.val → i.val ≤ 11 → (s.chip.input i.val).level ≠ lv → t.chip.bit Reg.gpevst (i.val - 4) = true)) ∧
    ((s.chip.input i.val).unstable = false → s.chip.tmax i.val ≠ 0 → s.chip.tmax i.val < (s.chip.input i.val).edges + k →
      ∃ t, exec (.inputQualified i lv k) s = .next t ∧ (t.chip.input i.val).tog = true ∧
        (t.chip.input i.val).decl = Nat.min 0xFFFF ((s.chip.input i.val).decl + 1) ∧
        t.chip.inLevel i.val = (if 4 ≤ i.val ∧ i.val ≤ 11 then (s.chip.input i.val).level else false) ∧
        ∃ r ∈ (s.chip.qualify i.val lv k).raised, r.ev = 13 ∧ r.src = i.val) ∧
    ((s.chip.input i.val).edges + k ≤ s.chip.tmax i.val →
      ∃ t, exec (.toggleWindowEnd i k) s = .next t ∧ (t.chip.input i.val).edges = 0 ∧
        (t.chip.input i.val).winAt = Nat.max s.chip.now ((s.chip.input i.val).winAt + s.chip.twin i.val) ∧
        ((t.chip.input i.val).tog = true ↔ (s.chip.input i.val).tog = true ∧
          ((s.chip.input i.val).quiet ≠ 3 ∨ s.chip.tmax i.val / 2 < (s.chip.input i.val).edges + k))) ∧
    ((s.chip.input i.val).stk = false → s.chip.rf (Reg.incfg i.val) 24 8 ≠ 0 →
      (s.chip.input i.val).raw = s.chip.bit (Reg.incfg i.val) 22 →
      ∃ t, exec (.stuckExpiry i) s = .next t ∧ (t.chip.input i.val).stk = true ∧
        t.chip.now = Nat.max s.chip.now ((s.chip.input i.val).stkAt + s.chip.rf (Reg.incfg i.val) 24 8 * 10000000) ∧
        ∃ r ∈ (s.chip.stuckExpiry i.val).raised, r.ev = 13 ∧ r.src = i.val) ∧
    (∀ m v, MayWrite s m (Reg.incfg i.val) → Does s (.incfgWrite m i v)
      (ok ((s.chip.plainWrite (Reg.incfg i.val) v).modInput i.val fun x =>
        { x with winAt := s.chip.now, edges := 0, quiet := 0 })))

/-- The counters: EN, USRRD and the selections are stored, CLR zeroes all eight; and while EN is set a counter that
selects an occurrence grows by it, modulo 2^48, with OVF and, where enabled, event 127 as it wraps, and one that selects
something else stays. -/
def Obligations.counters : Prop :=
  (∀ (s : State) (m : Master) (n : Fin 8) (v : Word),
    (MayWrite s m Reg.pmctl → v.getLsbD 2 = false →
      Does s (.pmonEnable m v) (ok (s.chip.plainWrite Reg.pmctl v))) ∧
    (MayWrite s m Reg.pmctl → v.getLsbD 2 = true →
      Does s (.pmonClear m v) (ok { s.chip.plainWrite Reg.pmctl v with pmon := [0, 0, 0, 0, 0, 0, 0, 0] })) ∧
    (MayWrite s m (Reg.cntCfg n.val) →
      Does s (.cntcfgWrite m n v) (ok (s.chip.plainWrite (Reg.cntCfg n.val) v)))) ∧
  (∀ (c : Chip) (o : Occur) (k : Nat) (i : Fin 8), c.Inv → c.up .sup = true → c.bit Reg.pmctl 0 = true →
    (c.pmonPass (c.reg (Reg.cntCfg i.val)) o = true →
      (c.pmonAdd o k).pmon.getD i.val 0 = (c.pmon.getD i.val 0 + k) % 2 ^ 48 ∧
      (2 ^ 48 ≤ c.pmon.getD i.val 0 + k → (c.pmonAdd o k).bit Reg.pmstat i.val = true ∧
        (c.bit (Reg.cntCfg i.val) 21 = true → ∃ r ∈ (c.pmonAdd o k).raised, r.ev = 127 ∧ r.src = i.val))) ∧
    (c.pmonPass (c.reg (Reg.cntCfg i.val)) o = false →
      (c.pmonAdd o k).pmon.getD i.val 0 = c.pmon.getD i.val 0))

/-! The ZIS instructions of strands and loop engines (chapter 13). -/

namespace Sys2Proof.Claims

/-- Strand `n` can execute an instruction with guard `g`: SUP is up, it is READY, its fetch succeeds, the guard holds. -/
structure StrandReady (c : Chip) (n : Fin 8) (g : Guard) : Prop where
  up : c.up .sup = true
  run : (c.strand n.val).run = .ready
  fetch : (c.fetch n).1 = true
  guard : Guard.holds g (c.strand n.val).p = true

/-- Tile `t`'s engine can execute an instruction of `cost` steps with guard `g`: it runs, its program counter is inside
its loop RAM, the word there has good parity, its worst case leaves the steps, and the guard holds. -/
structure TileReady (c : Chip) (t : Fin 2) (cost : Nat) (g : Guard) : Prop where
  up : c.up (tileDom t.val) = true
  run : (c.tile t.val).running = true
  pc : (c.tile t.val).pc < 0x4000
  parity : c.parityBad (loopRam t.val + (c.tile t.val).pc) 4 = false
  steps : (c.tile t.val).steps + cost ≤ c.fo.wcs
  guard : Guard.holds g (c.tile t.val).p = true

/-- What an instruction of one engine never changes: time, power, the grid, the gate, the hub, the CRC state, and the
registers, predicates, program counter and exception state of every other strand, with what is said of memory. -/
structure Elsewhere (c d : Chip) : Prop where
  now : d.now = c.now
  pwr : d.pwr = c.pwr
  tg : d.tg = c.tg
  crc : d.crc = c.crc
  mem : d.mem = c.mem
  badPar : d.badPar = c.badPar

/-- Another strand's registers and exception state are as they were. -/
def SameStrand (x y : Strand) : Prop :=
  y.g = x.g ∧ y.p = x.p ∧ y.pc = x.pc ∧ y.priv = x.priv ∧ y.ppriv = x.ppriv ∧ y.epc = x.epc ∧ y.ecause = x.ecause ∧
    y.eaddr = x.eaddr ∧ y.tvec = x.tvec ∧ y.eval = x.eval ∧ y.scr = x.scr

/-- Instruction `i` of strand `n` completes with the strand at `S`; it stores nothing, and no other strand and no tile
changes. -/
def StrandTo (s : State) (i : Instr) (n : Fin 8) (S : Strand) : Prop :=
  ∃ t, exec i s = .next t ∧ t.chip.strand n.val = { S with starv := 0 } ∧ Elsewhere s.chip t.chip ∧
    t.chip.tiles = s.chip.tiles ∧ ∀ k, k ≠ n.val → SameStrand (s.chip.strand k) (t.chip.strand k)

/-- A tile whose instruction of `cost` steps completes at `T`: it has stepped, and its program counter has moved on,
through the repeats in hand. -/
def moved (T : Tile) (cost : Nat) (pc : Nat) : Tile :=
  { T with stepped := true, steps := T.steps + cost }.endPass (pc + 4) T.rpt

/-- Instruction `i` of tile `t` completes with the tile at `T`; it stores nothing, and no strand and no other tile
changes. -/
def TileTo (s : State) (i : Instr) (t : Fin 2) (T : Tile) : Prop :=
  ∃ u, exec i s = .next u ∧ u.chip.tile t.val = T ∧ Elsewhere s.chip u.chip ∧
    u.chip.tile (1 - t.val) = s.chip.tile (1 - t.val) ∧ ∀ k, SameStrand (s.chip.strand k) (u.chip.strand k)

/-- Instruction `i` of either engine, of `cost` steps on a tile, completes with general registers `f` and predicates `h`
of those before, and moves on. -/
def EngineTo (s : State) (e : Engine) (cost : Nat) (g : Guard) (i : Instr) (f : List Word → List Word)
    (h : List Bool → List Bool) : Prop :=
  match e with
  | .strand n => StrandReady s.chip n g → StrandTo s i n
      { s.chip.strand n.val with
        g := f (s.chip.strand n.val).g, p := h (s.chip.strand n.val).p, pc := (s.chip.strand n.val).pc + 4 }
  | .tile t => TileReady s.chip t cost g → TileTo s i t
      (moved { s.chip.tile t.val with g := f (s.chip.tile t.val).g, p := h (s.chip.tile t.val).p } cost
        (s.chip.tile t.val).pc)

/-- The nearest 32-bit number, as a word. -/
def sat (x : Int) : Word := BitVec.ofInt 32 (Min.min (2 ^ 31 - 1) (Max.max (-2 ^ 31) x))

/-- Tables 13.6 and 13.7: each three-register instruction, its steps, and its result from `a` in ra and `b` in rb. -/
def arith (e : Engine) (g : Guard) (rd ra rb : Fin 16) (a b : Word) : List (Instr × Nat × Word) :=
  [(.add e g rd ra rb, 1, a + b), (.sub e g rd ra rb, 1, a - b), (.and e g rd ra rb, 1, a &&& b),
   (.or e g rd ra rb, 1, a ||| b), (.xor e g rd ra rb, 1, a ^^^ b), (.shl e g rd ra rb, 1, a <<< (b &&& 31)),
   (.shr e g rd ra rb, 1, a >>> (b &&& 31)), (.sra e g rd ra rb, 1, a.sshiftRight' (b &&& 31)),
   (.min e g rd ra rb, 1, if a.toInt ≤ b.toInt then a else b), (.max e g rd ra rb, 1, if a.toInt ≤ b.toInt then b else a),
   (.minu e g rd ra rb, 1, if a.toNat ≤ b.toNat then a else b),
   (.maxu e g rd ra rb, 1, if a.toNat ≤ b.toNat then b else a), (.mul e g rd ra rb, 1, a * b),
   (.mulh e g rd ra rb, 1, (a.signExtend 64 * b.signExtend 64).extractLsb' 32 32),
   (.mulhu e g rd ra rb, 1, (a.zeroExtend 64 * b.zeroExtend 64).extractLsb' 32 32),
   (.div e g rd ra rb, 8, if b = 0 then 0xFFFFFFFF else a.sdiv b), (.divu e g rd ra rb, 8, if b = 0 then 0xFFFFFFFF else a / b),
   (.rem e g rd ra rb, 8, if b = 0 then a else a.srem b), (.remu e g rd ra rb, 8, if b = 0 then a else a % b),
   (.qadd e g rd ra rb, 1, sat (a.toInt + b.toInt)), (.qsub e g rd ra rb, 1, sat (a.toInt - b.toInt)),
   (.qabs e g rd ra, 1, sat (if a.toInt < 0 then -a.toInt else a.toInt)), (.qneg e g rd ra, 1, sat (-a.toInt))]

/-- Table 13.8: each immediate instruction and its result from `a` in ra. -/
def arithImm (e : Engine) (g : Guard) (rd ra : Fin 16) (a : Word) (im : BitVec 14) (sh : BitVec 5) (hi : BitVec 18) :
    List (Instr × Word) :=
  [(.addi e g rd ra im, a + im.signExtend 32), (.andi e g rd ra im, a &&& im.zeroExtend 32),
   (.ori e g rd ra im, a ||| im.zeroExtend 32), (.xori e g rd ra im, a ^^^ im.zeroExtend 32), (.shli e g rd ra sh, a <<< sh),
   (.shri e g rd ra sh, a >>> sh), (.srai e g rd ra sh, a.sshiftRight' sh),
   (.mini e g rd ra im, if a.toInt ≤ im.toInt then a else im.signExtend 32),
   (.maxi e g rd ra im, if a.toInt ≤ im.toInt then im.signExtend 32 else a), (.lui e g rd hi, hi.zeroExtend 32 <<< 14)]

/-- A comparison of Table 13.5, of numbers. -/
def Compares : Cond → Word → Word → Prop
  | .eq, a, b => a = b
  | .ne, a, b => a ≠ b
  | .lt, a, b => a.toInt < b.toInt
  | .ge, a, b => b.toInt ≤ a.toInt
  | .ltu, a, b => a.toNat < b.toNat
  | .geu, a, b => b.toNat ≤ a.toNat

/-- A strand that takes an exception: c2, c3 and c4 saved, PPRIV from PRIV, privileged, at its vector, counted. -/
def trapped (S : Strand) (code : Nat) (resume addr : Word) : Strand :=
  { S with
    epc := resume, ecause := code, eaddr := addr, ppriv := S.priv, priv := true, pc := S.tvec,
    exc := Nat.min 0xFFFF (S.exc + 1) }

/-- A word of data SRAM that reads without an error: its page in use and not poisoned, its parity good, and no check-bit
test on. -/
structure SramOk (c : Chip) (a n : Nat) : Prop where
  sram : inSram a = true
  aligned : a % n = 0
  inUse : c.memc.retired.getLsbD (sramPage a) = false
  clean : c.memc.poison.getLsbD (sramPage a) = false
  parity : c.parityBad a n = false
  check : c.reg Reg.chkctl = 0
  up : c.up .sup = true

end Sys2Proof.Claims

/-- g0 reads 0 and discards writes; every other general register reads what was last written to it, and a write
changes no other. The register and immediate arithmetic of both engines writes rd with the result of its operation
column and nothing else; a strand's PC moves to the next word, and a tile's as its repeats say. -/
def Obligations.registers_and_arithmetic : Prop :=
  (∀ (g : List Word) (r q : Fin 16) (v : Word), g.length = 16 →
     gRead g 0 = 0 ∧ gWrite g 0 v = g ∧ (r ≠ 0 → gRead (gWrite g r v) r = v) ∧
     (q ≠ r → gRead (gWrite g r v) q = gRead g q) ∧ (gWrite g r v).length = 16) ∧
  (∀ (s : State) (e : Engine) (g : Guard) (rd ra rb : Fin 16) (sh : BitVec 6) (im : BitVec 14) (sa : BitVec 5)
     (hi : BitVec 18),
     (∀ x ∈ arith e g rd ra rb (s.chip.gGet e ra) (s.chip.gGet e rb),
       EngineTo s e x.2.1 g x.1 (fun r => gWrite r rd x.2.2) id) ∧
     EngineTo s e 1 g (.qmul e g rd ra rb sh) (fun r => gWrite r rd
       (sat (shiftI ((s.chip.gGet e ra).toInt * (s.chip.gGet e rb).toInt) sh.toInt))) id ∧
     (∀ x ∈ arithImm e g rd ra (s.chip.gGet e ra) im sa hi, EngineTo s e 1 g x.1 (fun r => gWrite r rd x.2) id))

/-- The comparisons and predicate instructions write one predicate and no register. An instruction whose guard is
false changes nothing but its engine's program counter. -/
def Obligations.comparisons_and_guards : Prop :=
  (∀ (s : State) (e : Engine) (g : Guard) (x : Cond) (pd ps pt : Fin 4) (ra rb : Fin 16) (im : BitVec 13) (b : Bool),
     ((b = true ↔ Compares x (s.chip.gGet e ra) (s.chip.gGet e rb)) →
       EngineTo s e 1 g (.cmp e g x pd ra rb) id (fun p => p.set pd.val b)) ∧
     ((b = true ↔ Compares x (s.chip.gGet e ra) (im.signExtend 32)) →
       EngineTo s e 1 g (.cmpi e g x pd ra im) id (fun p => p.set pd.val b)) ∧
     EngineTo s e 1 g (.pand e g pd ps pt) id (fun p => p.set pd.val (s.chip.pGet e ps && s.chip.pGet e pt)) ∧
     EngineTo s e 1 g (.por e g pd ps pt) id (fun p => p.set pd.val (s.chip.pGet e ps || s.chip.pGet e pt)) ∧
     EngineTo s e 1 g (.pxor e g pd ps pt) id (fun p => p.set pd.val (s.chip.pGet e ps ^^ s.chip.pGet e pt)) ∧
     EngineTo s e 1 g (.pandn e g pd ps pt) id (fun p => p.set pd.val (s.chip.pGet e ps && !s.chip.pGet e pt))) ∧
  (∀ (s : State) (n : Fin 8) (g : Guard) (i : Instr) (rd ra rb : Fin 16) (im : BitVec 14),
     StrandReady s.chip n .always → Guard.holds g (s.chip.strand n.val).p = false →
     i ∈ [.add (.strand n) g rd ra rb, .div (.strand n) g rd ra rb, .addi (.strand n) g rd ra im, .ldw n g rd ra im,
       .stw n g rd ra im, .swapw n g rd ra rb] →
     StrandTo s i n { s.chip.strand n.val with pc := (s.chip.strand n.val).pc + 4 })

/-- Loads and stores of a strand in data SRAM, little-endian, at ra plus the sign-extended offset: a load writes rd with
the bytes, extended as it says; a store changes the bytes it names and no other; SWAPW and CASW, at privileged level,
answer the old word in rd and store rb, CASW only where the old word is rd's. -/
def Obligations.strand_loads_and_stores : Prop :=
  ∀ (s : State) (n : Fin 8) (g : Guard) (rd ra rb : Fin 16) (im : BitVec 14) (S : Strand) (a : Nat),
    StrandReady s.chip n g → s.chip.Inv → S = { s.chip.strand n.val with pc := (s.chip.strand n.val).pc + 4 } →
    (a = (gRead S.g ra + im.signExtend 32).toNat →
      (SramOk s.chip a 4 → StrandTo s (.ldw n g rd ra im) n
        { S with g := gWrite S.g rd (BitVec.ofNat 32 (s.chip.bytesNat a 4)) }) ∧
      (SramOk s.chip a 2 →
        StrandTo s (.ldh n g rd ra im) n
          { S with g := gWrite S.g rd ((BitVec.ofNat 16 (s.chip.bytesNat a 2)).signExtend 32) } ∧
        StrandTo s (.ldhu n g rd ra im) n { S with g := gWrite S.g rd (BitVec.ofNat 32 (s.chip.bytesNat a 2)) }) ∧
      (SramOk s.chip a 1 →
        StrandTo s (.ldb n g rd ra im) n
          { S with g := gWrite S.g rd ((BitVec.ofNat 8 (s.chip.bytesNat a 1)).signExtend 32) } ∧
        StrandTo s (.ldbu n g rd ra im) n { S with g := gWrite S.g rd (BitVec.ofNat 32 (s.chip.bytesNat a 1)) }) ∧
      (∀ i k, (i, k) ∈ [(Instr.stw n g rd ra im, 4), (.sth n g rd ra im, 2), (.stb n g rd ra im, 1)] →
        SramOk s.chip a k →
        ∃ t, exec i s = .next t ∧ t.chip.strand n.val = { S with starv := 0 } ∧
          (∀ j, j < k → t.chip.byte (a + j) = (gRead S.g rd).extractLsb' (8 * j) 8) ∧
          ∀ b, b < a ∨ a + k ≤ b → t.chip.byte b = s.chip.byte b)) ∧
    (a = (gRead S.g ra).toNat → SramOk s.chip a 4 → S.priv = true →
      (∃ t, exec (.swapw n g rd ra rb) s = .next t ∧
        t.chip.strand n.val = { S with
          starv := 0, g := gWrite S.g rd (BitVec.ofNat 32 (s.chip.bytesNat a 4)) } ∧
        (∀ j, j < 4 → t.chip.byte (a + j) = (gRead S.g rb).extractLsb' (8 * j) 8) ∧
        ∀ b, b < a ∨ a + 4 ≤ b → t.chip.byte b = s.chip.byte b) ∧
      ∃ t, exec (.casw n g rd ra rb) s = .next t ∧
        t.chip.strand n.val = { S with
          starv := 0, g := gWrite S.g rd (BitVec.ofNat 32 (s.chip.bytesNat a 4)) } ∧
        (BitVec.ofNat 32 (s.chip.bytesNat a 4) = gRead S.g rd →
          ∀ j, j < 4 → t.chip.byte (a + j) = (gRead S.g rb).extractLsb' (8 * j) 8) ∧
        (BitVec.ofNat 32 (s.chip.bytesNat a 4) ≠ gRead S.g rd → t.chip.mem = s.chip.mem) ∧
        ∀ b, b < a ∨ a + 4 ≤ b → t.chip.byte b = s.chip.byte b)

/-- Control transfers: a branch whose condition holds goes its words from its own address, else on; JAL does so with
the next address in g15; JALR goes to an aligned sum with the next address in rd. System instructions: SYSC and BRK
take their exceptions with their immediate in c6 and the next address in c2; ERET returns to c2 at PPRIV; CRD reads
the eight control registers and CWR writes the fields that are writable; WFE goes on where an event routed to the
strand is pending, with its greatest wake priority, and waits otherwise; YIELD passes issue to the next READY strand
of its priority; FENCE only goes on. -/
def Obligations.control_and_system_instructions : Prop :=
  (∀ (s : State) (n : Fin 8) (x : Cond) (ra rb rd : Fin 16) (p : Fin 4) (off : BitVec 15) (far : BitVec 26)
     (im : BitVec 14) (S : Strand), StrandReady s.chip n .always → S = s.chip.strand n.val →
     (Compares x (gRead S.g ra) (gRead S.g rb) →
       StrandTo s (.b n (.cmp x ra rb) off) n { S with pc := S.pc + off.signExtend 32 * 4 }) ∧
     (¬Compares x (gRead S.g ra) (gRead S.g rb) →
       StrandTo s (.b n (.cmp x ra rb) off) n { S with pc := S.pc + 4 }) ∧
     StrandTo s (.b n (.bp p) off) n
       { S with pc := if S.p.getD p.val false = true then S.pc + off.signExtend 32 * 4 else S.pc + 4 } ∧
     StrandTo s (.b n (.bnp p) off) n
       { S with pc := if S.p.getD p.val false = true then S.pc + 4 else S.pc + off.signExtend 32 * 4 } ∧
     StrandTo s (.jal n far) n { S with g := gWrite S.g 15 (S.pc + 4), pc := S.pc + far.signExtend 32 * 4 } ∧
     ((gRead S.g ra + im.signExtend 32).toNat % 4 = 0 → StrandTo s (.jalr n rd ra im) n
       { S with g := gWrite S.g rd (S.pc + 4), pc := gRead S.g ra + im.signExtend 32 })) ∧
  ((∀ (s : State) (n : Fin 8) (im : BitVec 10) (rd ra cn : Fin 16) (S : Strand),
     StrandReady s.chip n .always → S = s.chip.strand n.val → S.p.length = 4 →
     StrandTo s (.sysc n im) n { trapped S 6 (S.pc + 4) 0 with eval := im.toNat } ∧
     StrandTo s (.brk n im) n { trapped S 7 (S.pc + 4) 0 with eval := im.toNat } ∧
     (S.priv = true → StrandTo s (.eret n) n { S with pc := S.epc, priv := S.ppriv, ppriv := false }) ∧
     (cn.val < 8 → S.priv = true ∨ cn.val ≤ 1 → StrandTo s (.crd n rd cn) n { S with
       pc := S.pc + 4
       g := gWrite S.g rd ([BitVec.ofNat 32 n.val,
         (if S.priv then 1 else 0) + (if S.ppriv then 2 else 0), S.epc, BitVec.ofNat 32 S.ecause, S.eaddr, S.tvec,
         BitVec.ofNat 32 S.eval, S.scr].getD cn.val 0) }) ∧
     (S.priv = true →
       StrandTo s (.cwr n 1 ra) n { S with
         pc := S.pc + 4, priv := (gRead S.g ra).getLsbD 0, ppriv := (gRead S.g ra).getLsbD 1 } ∧
       StrandTo s (.cwr n 2 ra) n { S with pc := S.pc + 4, epc := gRead S.g ra } ∧
       StrandTo s (.cwr n 5 ra) n { S with pc := S.pc + 4, tvec := gRead S.g ra &&& 0xFFFFFFFC } ∧
       StrandTo s (.cwr n 7 ra) n { S with pc := S.pc + 4, scr := gRead S.g ra } ∧
       ∀ k ∈ [(0 : Fin 16), 3, 4, 6], StrandTo s (.cwr n k ra) n { S with pc := S.pc + 4 }) ∧
     (s.chip.pendingFor n.val ≠ [] → ∃ t, exec (.wfe n) s = .next t ∧ (t.chip.strand n.val).run = .ready ∧
       (t.chip.strand n.val).pc = S.pc + 4 ∧ (t.chip.strand n.val).wakePri = s.chip.wakePrio n.val) ∧
     (∃ t, exec (.yield n) s = .next t ∧ (t.chip.strand n.val).pc = S.pc + 4 ∧
       t.chip.issue.holder = (if (s.chip.nextReady n.val).isSome then s.chip.nextReady n.val else some n)) ∧
     StrandTo s (.fence n) n { S with pc := S.pc + 4 }) ∧
   (∀ (c : Chip) (n : Fin 8), c.Inv → (c.strand n.val).run = .ready → c.pendingFor n.val = [] →
     ((c.waitEvent n.val).strand n.val).run = .waiting ∧ ((c.waitEvent n.val).strand n.val).wakePri = 0 ∧
     (c.waitEvent n.val).issue.holder ≠ some n))

/-- Exceptions: a reserved encoding raises ILLEGAL, a privileged instruction at user level PRIV, a misaligned access or
target ALIGN with the address in c4, a refused access BUS, a fetch that fails FETCH at the PC; the instruction itself has
no effect and c2 holds its own address. On a loop engine between deadline and chord a reserved encoding is a failure of
cause 6. -/
def Obligations.exceptions : Prop :=
  ∀ (s : State) (n : Fin 8) (t : Fin 2) (g : Guard) (w : Word) (rd ra : Fin 16) (im : BitVec 14) (S : Strand) (a : Word),
    S = s.chip.strand n.val → a = gRead S.g ra + im.signExtend 32 →
    (StrandReady s.chip n .always → zisDecode (.strand n) w = none →
      StrandTo s (.reservedEncoding (.strand n) w) n (trapped S 1 S.pc 0)) ∧
    (TileReady s.chip t 0 .always → zisDecode (.tile t) w = none → s.chip.up .hub = true → s.chip.Inv →
      s.chip.tg.instant = .deadline → ∃ u, exec (.reservedEncoding (.tile t) w) s = .next u ∧
        (u.chip.tile t.val).running = false ∧ (u.chip.tile t.val).failed = some 6) ∧
    (StrandReady s.chip n .always → S.priv = false →
      ∀ i ∈ [Instr.eret n, .crd n rd 2, .crd n rd 7, .cwr n 1 ra, .cwr n 5 ra],
        StrandTo s i n (trapped S 2 S.pc 0)) ∧
    (StrandReady s.chip n g → a.toNat % 4 ≠ 0 →
      StrandTo s (.ldw n g rd ra im) n (trapped S 3 S.pc a) ∧ StrandTo s (.stw n g rd ra im) n (trapped S 3 S.pc a)) ∧
    (StrandReady s.chip n .always → a.toNat % 4 ≠ 0 → StrandTo s (.jalr n rd ra im) n (trapped S 3 S.pc a)) ∧
    (StrandReady s.chip n g → a.toNat % 4 = 0 → inMemory a.toNat = false → inBlock a.toNat = false →
      StrandTo s (.ldw n g rd ra im) n (trapped S 4 S.pc a) ∧ StrandTo s (.stw n g rd ra im) n (trapped S 4 S.pc a)) ∧
    (s.chip.up .sup = true → S.run = .ready → (s.chip.fetch n).1 = false →
      StrandTo s (.fence n) n (trapped S 5 S.pc S.pc))

namespace Sys2Proof.Claims

/-- Bytes of tile `t`'s own loop RAM that its engine reads without an error: the address of `a`, `k` bytes on, aligned,
outside the mirror region, with good parity and no check-bit test on. -/
structure OwnOk (c : Chip) (t : Fin 2) (a : LAddr) (k n : Nat) : Prop where
  own : a.l = true
  aligned : c.loopAddr t a k % n = 0
  mirror : c.loopAddr t a k < loopRam t.val + mirrorOff ∨ loopRam t.val + mirrorOff + 0x400 ≤ c.loopAddr t a k
  parity : c.parityBad (c.loopAddr t a k) n = false
  check : c.reg Reg.chkctl = 0

/-- The `n` bytes at the address of `a`, `k` bytes on. -/
def own (c : Chip) (t : Fin 2) (a : LAddr) (k n : Nat) : Nat := c.bytesNat (c.loopAddr t a k) n

/-- A store of tile `t` completes: the tile has moved on, the `n` bytes at `a` hold `v`, little-endian, and no other byte
of memory changes. -/
def TileStores (s : State) (i : Instr) (t : Fin 2) (cost a n v : Nat) : Prop :=
  ∃ u, exec i s = .next u ∧ u.chip.tile t.val = moved (s.chip.tile t.val) cost (s.chip.tile t.val).pc ∧
    (∀ j, j < n → u.chip.byte (a + j) = BitVec.ofNat 8 (v / 256 ^ j)) ∧
    ∀ b, b < a ∨ a + n ≤ b → u.chip.byte b = s.chip.byte b

/-- The nearest 64-bit number. -/
def sat64' (x : Int) : Int := Min.min (2 ^ 63 - 1) (Max.max (-2 ^ 63) x)

end Sys2Proof.Claims

/-- A loop engine's scalar loads and stores in its own loop RAM: LDQ and LDQ_U write rd with the bytes, sign- or
zero-extended, ALD an accumulator with eight bytes; STQ and AST change the bytes they name and no other. A misaligned
access is a failure of cause 6. Accumulator instructions: each writes its accumulator with its operation column's
value, held to 64 bits, or rd with its result held to 32, and nothing else. -/
def Obligations.loop_memory_and_accumulators : Prop :=
  (∀ (s : State) (t : Fin 2) (g : Guard) (sz : Size) (rd : Fin 16) (ad : Fin 4) (a : LAddr) (T : Tile) (pc : Nat),
     s.chip.Inv → T = s.chip.tile t.val → pc = T.pc →
     (TileReady s.chip t 1 g → OwnOk s.chip t a 0 sz.bytes →
       TileTo s (.ldq t g sz rd a) t
         (moved { T with g := gWrite T.g rd (BitVec.ofInt 32 (signed (8 * sz.bytes) (own s.chip t a 0 sz.bytes))) } 1 pc) ∧
       TileTo s (.ldqU t g sz rd a) t
         (moved { T with g := gWrite T.g rd (BitVec.ofNat 32 (own s.chip t a 0 sz.bytes)) } 1 pc)) ∧
     (TileReady s.chip t 2 g → OwnOk s.chip t a 0 8 → OwnOk s.chip t a 4 4 → TileTo s (.ald t g ad a) t
       (moved { T with
         a := T.a.set ad.val (signed 64 (own s.chip t a 0 4 + 2 ^ 32 * own s.chip t a 4 4)) } 2 pc)) ∧
     (TileReady s.chip t 1 g → OwnOk s.chip t a 0 sz.bytes →
       loopRam t.val + 0x800 ≤ s.chip.loopAddr t a 0 → s.chip.loopAddr t a 0 < loopRam t.val + 0xC00 →
       TileStores s (.stq t g sz rd a) t 1 (s.chip.loopAddr t a 0) sz.bytes (gRead T.g rd).toNat) ∧
     (TileReady s.chip t 2 g → OwnOk s.chip t a 0 8 → T.a.length = 4 →
       loopRam t.val + 0x800 ≤ s.chip.loopAddr t a 0 → s.chip.loopAddr t a 0 < loopRam t.val + 0xC00 →
       TileStores s (.ast t g ad a) t 2 (s.chip.loopAddr t a 0) 8 (BitVec.ofInt 64 (T.acc ad)).toNat) ∧
     (TileReady s.chip t 1 g → s.chip.up .hub = true → s.chip.tg.instant = .deadline → a.l = true →
       s.chip.loopAddr t a 0 % sz.bytes ≠ 0 → ∃ u, exec (.ldq t g sz rd a) s = .next u ∧
         (u.chip.tile t.val).running = false ∧ (u.chip.tile t.val).failed = some 6)) ∧
  (∀ (s : State) (t : Fin 2) (g : Guard) (ad ab : Fin 4) (rd ra rb gs : Fin 16) (sh : BitVec 6) (T : Tile) (pc : Nat),
     T = s.chip.tile t.val → pc = T.pc → T.a.length = 4 →
     let a := T.acc ad
     let x := (gRead T.g ra).toInt
     let y := (gRead T.g rb).toInt
     let r := Min.min 63 (Max.max (-63) (gRead T.g gs).toInt)
     (TileReady s.chip t 1 g →
       (∀ p ∈ [(Instr.mac t g ad ra rb sh, a + shiftI (x * y) sh.toInt), (.msu t g ad ra rb sh, a - shiftI (x * y) sh.toInt),
           (.macx t g ad ra rb gs, a + shiftI (x * y) r), (.msux t g ad ra rb gs, a - shiftI (x * y) r),
           (.acw t g ad ra sh, shiftI x sh.toInt), (.acadd t g ad ra sh, a + shiftI x sh.toInt),
           (.acacc t g ad ab sh, a + shiftI (T.acc ab) sh.toInt), (.acclr t g ad, 0)],
         TileTo s p.1 t (moved { T with a := T.a.set ad.val (sat64' p.2) } 1 pc)) ∧
       (∀ p ∈ [(Instr.acr t g rd ad sh, sat (shiftI a sh.toInt)), (.achi t g rd ad, BitVec.ofInt 32 (a / 2 ^ 32)),
           (.aclo t g rd ad, BitVec.ofInt 32 a)],
         TileTo s p.1 t (moved { T with g := gWrite T.g rd p.2 } 1 pc))) ∧
     (TileReady s.chip t 8 g → TileTo s (.adiv t g rd ad rb) t (moved { T with
       g := gWrite T.g rd (if y ≠ 0 then sat (a.tdiv y) else if 0 < a then 0x7FFFFFFF else if a < 0 then 0x80000000
         else 0) } 8 pc)))

namespace Sys2Proof.Claims

/-- A vector instruction of tile `t` with `k` steps a group completes: lane `j` of vector `vd` is `f j` where the lane is
acted on, and every other lane, vector, register, accumulator, predicate and mask is as it was. -/
def VecTo (s : State) (i : Instr) (t : Fin 2) (k : Nat) (vd : Fin 8) (act : Nat → Bool) (f : Nat → Word) : Prop :=
  TileReady s.chip t (k * (s.chip.tile t.val).vn) .always → ∃ w : List Word,
    (∀ j, j < 128 → w.getD j 0 = if act j then f j else (s.chip.tile t.val).lane vd j) ∧ w.length = 128 ∧
    TileTo s i t (moved { s.chip.tile t.val with v := (s.chip.tile t.val).v.set vd.val w }
      (k * (s.chip.tile t.val).vn) (s.chip.tile t.val).pc)

/-- The slots that a vector instruction acts on: those of the groups in range, with `m` those whose mask bit is 1. -/
def acts (T : Tile) (m : Bool) (j : Nat) : Bool :=
  decide (8 * T.vg0 ≤ j ∧ j < 8 * T.vg0 + 8 * T.vn ∧ j < 128) && (!m || T.vmask.getLsbD j)

end Sys2Proof.Claims

/-- Vector arithmetic: each lane acted on is its operation column's value of the same lanes, held to 32 bits. -/
def Obligations.vector_arithmetic : Prop :=
  ∀ (s : State) (t : Fin 2) (m : Bool) (vd va : Fin 8) (b : VOperand) (gb gc : Fin 16) (sh : BitVec 6) (T : Tile),
    T = s.chip.tile t.val → T.v.length = 8 → (∀ l ∈ T.v, l.length = 128) →
    let x (j : Nat) : Int := (T.lane va j).toInt
    let y (j : Nat) : Int := (T.operand b j).toInt
    let mul := (gRead T.g gb).toInt
    let div := (gRead T.g gc).toInt
    (∀ p ∈ [(Instr.vadd t m vd va b, fun j => sat (x j + y j)), (.vsub t m vd va b, fun j => sat (x j - y j)),
        (.vmul t m vd va b sh, fun j => sat (shiftI (x j * y j) sh.toInt)),
        (.vmin t m vd va b, fun j => if x j ≤ y j then T.lane va j else T.operand b j),
        (.vmax t m vd va b, fun j => if x j ≤ y j then T.operand b j else T.lane va j),
        (.vand t m vd va b, fun j => T.lane va j &&& T.operand b j),
        (.vor t m vd va b, fun j => T.lane va j ||| T.operand b j),
        (.vxor t m vd va b, fun j => T.lane va j ^^^ T.operand b j),
        (.vsh t m vd va sh, fun j => sat (shiftI (x j) sh.toInt)), (.vidx t m vd, fun j => BitVec.ofNat 32 j)],
      VecTo s p.1 t 1 vd (acts T m) p.2) ∧
    VecTo s (.vmuldiv t m vd va gb gc) t 4 vd (acts T m) (fun j => if div = 0 then 0 else sat ((x j * mul).tdiv div)) ∧
    VecTo s (.vsel t vd va b) t 1 vd (acts T false)
      (fun j => if T.vmask.getLsbD j then T.lane va j else T.operand b j) ∧
    VecTo s (.vscan t m vd va) t 2 vd (acts T false) (fun j =>
      sat (((List.range 128).filter fun i => acts T m i && decide (i < j)).map x).sum)

/-- Vector comparison, reductions, moves and the range: VCMP writes the mask over the range alone; VSUM, VCNT, VMAXR
and VMINR put their result over the lanes acted on into an accumulator; VGET and VPUT move the slot that gi names,
whatever the range; VRANGE sets the range. Vector and mask memory in the own loop RAM. VLD reads the lanes acted on,
each at its slot's stride; VST stores them and changes no other byte; VMLD, VMAND and VMOR combine the mask with a
sixteen-byte image, and VMST stores it. -/
def Obligations.vector_masks_reductions_and_memory : Prop :=
  (∀ (s : State) (t : Fin 2) (m : Bool) (c : Cond) (ad : Fin 4) (vd va : Fin 8) (b : VOperand) (gi gb g0 nm1 : Fin 16)
     (sh : BitVec 6) (T : Tile) (pc : Nat), T = s.chip.tile t.val → pc = T.pc → T.a.length = 4 → T.v.length = 8 →
     (∀ l ∈ T.v, l.length = 128) →
     let x (j : Nat) : Int := (T.lane va j).toInt
     let lanes := (List.range 128).filter (acts T m)
     (TileReady s.chip t T.vn .always →
       (∃ mk : BitVec 128, TileTo s (.vcmp t c m va b) t (moved { T with vmask := mk } T.vn pc) ∧
         ∀ j, j < 128 → (mk.getLsbD j = true ↔
           if acts T false j then Compares c (T.lane va j) (T.operand b j) ∧ (m = true → T.vmask.getLsbD j = true)
           else T.vmask.getLsbD j = true)) ∧
       TileTo s (.vsum t m ad va sh) t (moved { T with
         a := T.a.set ad.val (sat64' (T.acc ad + (lanes.map fun j => shiftI (x j) sh.toInt).sum)) } T.vn pc) ∧
       TileTo s (.vcnt t m ad) t (moved { T with a := T.a.set ad.val (sat64' (T.acc ad + lanes.length)) } T.vn pc) ∧
       TileTo s (.vmaxr t m ad va) t (moved { T with
         a := T.a.set ad.val (sat64' ((lanes.map x).foldl Max.max (T.acc ad))) } T.vn pc) ∧
       TileTo s (.vminr t m ad va) t (moved { T with
         a := T.a.set ad.val (sat64' ((lanes.map x).foldl Min.min (T.acc ad))) } T.vn pc)) ∧
     (TileReady s.chip t 1 .always →
       TileTo s (.vget t gb va gi) t (moved { T with
         g := gWrite T.g gb (T.lane va ((gRead T.g gi).toNat % 128)) } 1 pc) ∧
       (∃ w : List Word, (∀ j, j < 128 → w.getD j 0 = if j = (gRead T.g gi).toNat % 128 then gRead T.g gb else T.lane vd j) ∧
         TileTo s (.vput t vd gi gb) t (moved { T with v := T.v.set vd.val w } 1 pc)) ∧
       TileTo s (.vrange t g0 nm1) t (moved { T with vg0 := g0.val, vn := nm1.val + 1 } 1 pc) ∧
       TileTo s (.vmnot t) t (moved { T with vmask := ~~~T.vmask } 1 pc) ∧
       TileTo s (.vmall t) t (moved { T with vmask := BitVec.allOnes 128 } 1 pc) ∧
       TileTo s (.vmnone t) t (moved { T with vmask := 0 } 1 pc))) ∧
  (∀ (s : State) (t : Fin 2) (m : Bool) (sz : Size) (st : Fin 6) (vd : Fin 8) (a : LAddr) (T : Tile) (pc : Nat),
     s.chip.Inv → T = s.chip.tile t.val → pc = T.pc → T.v.length = 8 → (∀ l ∈ T.v, l.length = 128) →
     ((∀ j, acts T m j = true → OwnOk s.chip t a (j * 2 ^ st.val) sz.bytes) → a.l = true →
       VecTo s (.vld t sz false m st vd a) t 1 vd (acts T m) (fun j =>
         BitVec.ofNat 32 (own s.chip t a (j * 2 ^ st.val) sz.bytes)) ∧
       VecTo s (.vld t sz true m st vd a) t 1 vd (acts T m) (fun j =>
         BitVec.ofInt 32 (signed (8 * sz.bytes) (own s.chip t a (j * 2 ^ st.val) sz.bytes)))) ∧
     (TileReady s.chip t T.vn .always → a.l = true → sz.bytes ≤ 2 ^ st.val →
       (∀ j, acts T m j = true → OwnOk s.chip t a (j * 2 ^ st.val) sz.bytes ∧
         loopRam t.val + 0x800 ≤ s.chip.loopAddr t a (j * 2 ^ st.val) ∧
         s.chip.loopAddr t a (j * 2 ^ st.val) < loopRam t.val + 0xC00) →
       ∃ u, exec (.vst t sz m st vd a) s = .next u ∧ u.chip.tile t.val = moved T T.vn pc ∧
         (∀ j, acts T m j = true → ∀ i, i < sz.bytes →
           u.chip.byte (s.chip.loopAddr t a (j * 2 ^ st.val) + i) = (T.lane vd j).extractLsb' (8 * i) 8) ∧
         ∀ b, (∀ j, acts T m j = true → b < s.chip.loopAddr t a (j * 2 ^ st.val) ∨
           s.chip.loopAddr t a (j * 2 ^ st.val) + sz.bytes ≤ b) → u.chip.byte b = s.chip.byte b) ∧
     (TileReady s.chip t 2 .always → (∀ i, i < 4 → OwnOk s.chip t a (4 * i) 4) →
       let im := BitVec.ofNat 128 (own s.chip t a 0 4 + 2 ^ 32 * own s.chip t a 4 4 + 2 ^ 64 * own s.chip t a 8 4 +
         2 ^ 96 * own s.chip t a 12 4)
       TileTo s (.vmld t a) t (moved { T with vmask := im } 2 pc) ∧
       TileTo s (.vmand t a) t (moved { T with vmask := T.vmask &&& im } 2 pc) ∧
       TileTo s (.vmor t a) t (moved { T with vmask := T.vmask ||| im } 2 pc) ∧
       (loopRam t.val + 0x800 ≤ s.chip.loopAddr t a 0 → s.chip.loopAddr t a 0 + 12 < loopRam t.val + 0xC00 →
         TileStores s (.vmst t a) t 2 (s.chip.loopAddr t a 0) 16 T.vmask.toNat)))

/-- RPT pushes a repeat of the instructions behind it; at a body's end each pass but the last adds the step to its register
and goes back, and the last adds it and goes on; END of a program that has run, with no loop on, ends the tile's period with the tick. -/
def Obligations.repeats_and_end : Prop :=
  (∀ (s : State) (t : Fin 2) (n : BitVec 8) (len : BitVec 6) (gi : Fin 16) (inc : BitVec 8) (T : Tile),
    T = s.chip.tile t.val → TileReady s.chip t 1 .always →
    (TileTo s (.rpt t n len gi inc) t { T with
      stepped := true, steps := T.steps + 1, pc := T.pc + 4
      rpt := { start := T.pc + 4, len := len.toNat + 1, left := n.toNat + 1, gi := gi, inc := inc } :: T.rpt }) ∧
    (T.stepped = true → (∀ k, k < 4 → (s.chip.loopSt k).on = false) →
      ∃ u, exec (.endLoop t) s = .next u ∧ (u.chip.tile t.val).running = false ∧
        (u.chip.tile t.val).failed = T.failed ∧ (u.chip.tile t.val).doneTick = some s.chip.tg.tick)) ∧
  (∀ (T : Tile) (r : Repeat) (rest : List Repeat) (n : Nat),
    (n ≠ r.start + 4 * r.len → T.endPass n (r :: rest) = { T with pc := n, rpt := r :: rest }) ∧
    (n = r.start + 4 * r.len → 1 < r.left → T.endPass n (r :: rest) = { T with
      g := gWrite T.g r.gi (gRead T.g r.gi + r.inc.signExtend 32), pc := r.start
      rpt := { r with left := r.left - 1 } :: rest }) ∧
    (n = r.start + 4 * r.len → r.left ≤ 1 → T.endPass n (r :: rest) =
      { T with g := gWrite T.g r.gi (gRead T.g r.gi + r.inc.signExtend 32) }.endPass n rest))

/-! The memories and the recorder (chapters 15 and 16). -/

/-- MEM's commands. A write of ones to RETIREi retires those pages, each new one with event 116, and no other; with
its key FLUSH programs what the merge buffer holds and ERASE starts the erase of a settings sector; a program write
that completes leaves the word as it was sent, its check bits good, and an erase ones in its sector; CHKCTL refuses a
READY tile's loop RAM with CHKREF; LOGPOP removes the head of the error log. The scrubber, while enabled, reads one
word a step and moves on by it; a data SRAM word with a wrong parity poisons its page with event 113 and the page as
source; a mirror word with a wrong one is rewritten from a good other region; a flash word with one wrong bit raises
event 114 and is counted. A page poisoned reads as a bus error, and a good word changes nothing. -/
def Obligations.memory_commands_and_scrubbing : Prop :=
  (∀ (s : State) (m : Master) (i : Fin 8) (v : Word), s.chip.Inv →
     (MayWrite s m (Reg.retireReg i.val) → ∃ t, exec (.retire m i v) s = .next t ∧ t.chip.answer = .done ∧
       (∀ p, p < 256 → (t.chip.memc.retired.getLsbD p = true ↔ s.chip.memc.retired.getLsbD p = true ∨
         (p / 32 = i.val ∧ v.getLsbD (p % 32) = true))) ∧
       ∀ p, p / 32 = i.val → v.getLsbD (p % 32) = true → s.chip.memc.retired.getLsbD p = false →
         ∃ r ∈ (s.chip.retirePages i.val v).raised, r.ev = 116 ∧ r.src = p) ∧
     (MayWrite s m Reg.flcmd → s.chip.memc.op = none → ∀ a lo hi, s.chip.memc.merge = some (a, lo, hi) →
       (lo = none ∨ hi = none) → s.chip.erased a = true →
       Does s (.flush m 0xF1A50002) (ok { s.chip.setBit Reg.memstat 2 with
         memc := { s.chip.memc with
           merge := none, mergeChk := none
           op := some (.program a (lo.getD 0xFFFFFFFF) (hi.getD 0xFFFFFFFF) s.chip.memc.mergeChk) } })) ∧
     (MayWrite s m Reg.flcmd → s.chip.up .nvm = true → s.chip.memc.op = none →
       0xF0000 ≤ (s.chip.reg Reg.fladdr).toNat → (s.chip.reg Reg.fladdr).toNat < 0xFE000 →
       Does s (.erase m 0xF1A50001) (ok { s.chip with memc.op := some (.erase (s.chip.reg Reg.fladdr).toNat) })) ∧
     (MayWrite s m Reg.flcmd → fld v 16 16 ≠ 0xF1A5 → Does s (.flush m v) (ok s.chip) ∧ Does s (.erase m v) (ok s.chip)) ∧
     (∀ a lo hi, s.chip.memc.op = some (.program a lo hi none) → a % 8 = 0 → a < 0x100000 →
       (s.chip.ecc.Pairwise fun p q => p.1 < q.1) →
       ∃ t, exec .flashOperationDone s = .next t ∧ t.chip.memc.op = none ∧ t.chip.bytesNat a 4 = lo.toNat ∧
         t.chip.bytesNat (a + 4) 4 = hi.toNat ∧ t.chip.flashRead a = some (hi ++ lo, false) ∧
         ∀ b, b < a ∨ a + 8 ≤ b → t.chip.byte b = s.chip.byte b) ∧
     (∀ a, s.chip.memc.op = some (.erase a) → a % 4096 = 0 → a < 0x100000 →
       ∃ t, exec .flashOperationDone s = .next t ∧ t.chip.memc.op = none ∧
         (∀ b, a ≤ b → b < a + 4096 → t.chip.byte b = 0xFF) ∧
         ∀ b, b < a ∨ a + 4096 ≤ b → t.chip.byte b = s.chip.byte b) ∧
     (MayWrite s m Reg.chkctl →
       ((∃ t : Fin 2, fld v 1 2 = t.val + 1 ∧ (s.chip.tile t.val).ready = true) →
         Does s (.chkctlWrite m v) (ok (s.chip.setBit Reg.memstat 5))) ∧
       ((∀ t : Fin 2, fld v 1 2 = t.val + 1 → (s.chip.tile t.val).ready = false) →
         Does s (.chkctlWrite m v) (ok (s.chip.plainWrite Reg.chkctl v)))) ∧
     (MayWrite s m Reg.logpop → v.getLsbD 0 = true →
       Does s (.logpop m v) (ok { s.chip with memc.log := s.chip.memc.log.tail }))) ∧
  (∀ (s : State), s.chip.Inv → s.chip.up .sup = true → s.chip.bit Reg.memctl 0 = true →
     (s.chip.memc.scrMem = 0 → s.chip.memc.scrOff + 4 < 0x40000 →
       ∃ t, exec .scrubStep s = .next t ∧ t.chip.memc.scrMem = 0 ∧ t.chip.memc.scrOff = s.chip.memc.scrOff + 4 ∧
         t.chip.mem = s.chip.mem ∧
         ∀ p, p < 256 → (t.chip.memc.poison.getLsbD p = true ↔ s.chip.memc.poison.getLsbD p = true ∨
           (p = sramPage (0x20000000 + s.chip.memc.scrOff) ∧ s.chip.memc.retired.getLsbD p = false ∧
             s.chip.parityBad (0x20000000 + s.chip.memc.scrOff) 4 = true))) ∧
     (s.chip.memc.scrMem = 0 → s.chip.memc.scrOff < 0x40000 → ∀ a, a = 0x20000000 + s.chip.memc.scrOff →
       s.chip.memc.retired.getLsbD (sramPage a) = false → s.chip.parityBad a 4 = true →
       ∃ r ∈ s.chip.scrubStep.raised, r.ev = 113 ∧ r.src = sramPage a) ∧
     (∀ a, inSram a = true → s.chip.memc.poison.getLsbD (sramPage a) = true →
       s.chip.memc.retired.getLsbD (sramPage a) = false → s.chip.bit Reg.chkctl 3 = false → ∀ m n,
       (s.chip.memRead m a n).1 = none ∧ ∃ r ∈ (s.chip.memRead m a n).2.raised, r.ev = 112) ∧
     (∀ a, a < 0x140000 → (s.chip.flashRead a).map (·.2) = some true →
       (∃ r ∈ (s.chip.scrubWord a).raised, r.ev = 114) ∧ (s.chip.scrubWord a).mem = s.chip.mem))

/-- The flash code of R461: a word whose stored bits are not all ones reads as it was stored, uncorrected; with any one of
its data bits wrong it reads corrected; and with two of them wrong it does not read. -/
def Obligations.flash_code : Prop :=
  ∀ (c : Chip) (a : Nat) (d : BitVec 64), c.erased a = false → c.flashChk a = eccBits d →
    (c.flashData a = d → c.flashRead a = some (d, false)) ∧
    (∀ i, i < 64 → c.flashData a = d ^^^ (1#64 <<< i) → c.flashRead a = some (d, true)) ∧
    (∀ i j, i < 64 → j < 64 → i ≠ j → c.flashData a = d ^^^ (1#64 <<< i) ^^^ (1#64 <<< j) → c.flashRead a = none)

/-- The recorder's commands: a flush asked for and the flush timer ask for a flush; a freeze holds what would enter
and its end, by firmware or at FRZMAX, enters what it held and a freeze record with its count; a record written goes
to WPTR with its check, and one that fails loses the rest of the flush; a flush with nothing left ends with event 117;
the sector ahead becomes ones. The recorder's start, views and snapshots: it becomes ready, a power cycle counted, its
boot record at the place it found; a read of WINv7 answers the word at the view's cursor and moves the cursor on; a
read of SNAPDATA answers a word of the selected snapshot and moves the offset on; and a snapshot that ends is the
newest, in its slot, with its check. -/
def Obligations.recorder : Prop :=
  (∀ (s : State) (m : Master) (v : Word), s.chip.Inv →
     (MayWrite s m Reg.recctl → v = 4 → s.chip.up .nvm = true → s.chip.recd.frozen = false →
       Does s (.recorderFlushRequest m v) (ok { s.chip with recd.flReq := true })) ∧
     (MayWrite s m Reg.recctl → v = 2 → s.chip.up .nvm = true → s.chip.recd.frozen = false →
       Does s (.freezeWrite m v) (ok { s.chip with
         recd := { s.chip.recd with frozen := true, frzAt := s.chip.now, frzCnt := 0 } })) ∧
     (MayWrite s m Reg.recctl → v = 0 → s.chip.recd.frozen = true → s.chip.recd.hold = [] → s.chip.recd.held < 64 →
       Does s (.freezeWrite m v) (ok { s.chip with
         recd := { s.chip.recd with
           frozen := false, frzCnt := 0, hold := []
           buf := s.chip.recd.buf ++
             [Record.mk 0 0 0 2 0 0 s.chip.recd.frzCnt s.chip.recd.optime s.chip.recd.pcyc] } })) ∧
     (s.chip.recd.frozen = true → ∃ t, exec .frzmaxExpiry s = .next t ∧ t.chip.recd.frozen = false ∧
       t.chip.now = Nat.max s.chip.now (s.chip.recd.frzAt + orOne (s.chip.rf Reg.reccfg 8 8) * 100000000)) ∧
     (s.chip.up .nvm = true → s.chip.rf Reg.reccfg 16 16 ≠ 0 → s.chip.recd.buf ≠ [] → s.chip.recd.flBusy = false →
       Does s .flushTimer { s.chip.elapseTo (s.chip.recd.flTick + s.chip.rf Reg.reccfg 16 16 * 100000000) with
         recd.flReq := true }) ∧
     (∀ x rest, s.chip.recd.flBusy = true → s.chip.up .nvm = true → s.chip.recd.flushing = x :: rest → x.kind = 0 →
       (∃ t, exec (.recordWritten true) s = .next t ∧ t.chip.recd.wptr = (s.chip.recd.wptr + 1) % 8192 ∧
         ∀ j, j < 32 → t.chip.byte (recAddr s.chip.recd.wptr + j) =
           (x.bytesAt (recAddr s.chip.recd.wptr)).getD j 0) ∧
       ∃ t, exec (.recordWritten false) s = .next t ∧ t.chip.recd.wptr = (s.chip.recd.wptr + 1) % 8192 ∧
         t.chip.bit Reg.recstat 1 = true) ∧
     (s.chip.up .nvm = true → s.chip.recd.flBusy = true → s.chip.recd.flushing = [] → s.chip.pwr.pfFlush = false →
       s.chip.pwr.shipping = false →
       Does s .flushDone ({ s.chip with recd.flBusy := false, recd.flTick := s.chip.now }.raise 117)) ∧
     (∀ k, k < 64 → s.chip.recd.ersBusy = some k → s.chip.up .nvm = true →
       ∃ t, exec .sectorEraseDone s = .next t ∧ t.chip.recd.ersBusy = none ∧
         ∀ b, recAddr (128 * k) ≤ b → b < recAddr (128 * k) + 4096 → t.chip.byte b = 0xFF)) ∧
  (∀ (s : State) (m : Master), s.chip.Inv →
     (s.chip.up .nvm = true → s.chip.recd.ready = false → s.chip.newestPos = none →
       ∃ t, exec .recorderStart s = .next t ∧ t.chip.recd.ready = true ∧ t.chip.recd.pcyc = 1 ∧ t.chip.recd.wptr = 1 ∧
         ∀ j, j < 32 → t.chip.byte (recAddr 0 + j) =
           ((Record.mk s.chip.ev.seq s.chip.tg.tick 0 3 0 0 s.chip.pwr.rstCause.toNat s.chip.recd.optime 1).bytesAt
             (recAddr 0)).getD j 0) ∧
     (s.chip.regGrant m (Reg.win0 7) 4 true = true → Does s (.winRead m 0)
       (val (s.chip.setReg (Reg.cursor 0) (BitVec.ofNat 32 ((s.chip.rf (Reg.cursor 0) 0 13 + 1) % 8192)))
         (s.chip.viewWord 0 7))) ∧
     (s.chip.regGrant m (Reg.win1 7) 4 true = true → Does s (.winRead m 1)
       (val (s.chip.setReg (Reg.cursor 1) (BitVec.ofNat 32 ((s.chip.rf (Reg.cursor 1) 0 13 + 1) % 8192)))
         (s.chip.viewWord 1 7))) ∧
     (s.chip.regGrant m Reg.snapdata 4 true = true → Does s (.snapdataRead m)
       (val (s.chip.putFld Reg.snapsel 4 12 ((s.chip.rf Reg.snapsel 4 12 + 4) % 4096)) s.chip.snapWord)) ∧
     (∀ k bs, k < 8 → s.chip.recd.snapBusy = some (k, bs) → s.chip.up .nvm = true → bs.length = 4096 →
       s.chip.reg Reg.snaplock = 0xFF → (s.chip.snap.Pairwise fun p q => p.1 < q.1) →
       ∃ t, exec .snapshotDone s = .next t ∧ t.chip.recd.snapBusy = none ∧ t.chip.recd.snapNew = some k ∧
         t.chip.bit Reg.snapstat 8 = true ∧ ∀ j, j < 4096 → t.chip.snapByte (4096 * k + j) = bs.getD j 0))

/-! Analog acquisition, the bus gate and the set-point link (chapters 10, 16 and 6). -/

/-- ADC's commands: a conversion's code is corrected, clamped and kept as its channel's result; a reference change
unsettles until its time has passed; a check out of range loses the reference with event 107, and the second in range
gives it back; an injected request waits its turn, a full queue drops it with event 106, and what is refused sets
REQREF alone. Calibration and regular lists: a calibration is asked for of an enabled converter with a settled
reference; each step counts; its end loads CALk with event 108; a pass that is due converts the list's first channel;
and a list is written only while it does not run, for channels to 23. -/
def Obligations.analog_acquisition : Prop :=
  (∀ (s : State) (m : Master) (k : Fin 2) (v : Word), s.chip.Inv →
     (∀ x code, s.chip.up .afe = true → (s.chip.conv k.val).busy = some x → x.ch < 24 → s.chip.adc.results.length = 24 →
       ∃ t, exec (.conversionComplete k code) s = .next t ∧
         (t.chip.adc.results.getD x.ch {}).lo = s.chip.corrected x.ch code.toNat x.refuv ∧
         (t.chip.adc.results.getD x.ch {}).cnt = ((s.chip.adc.results.getD x.ch {}).cnt + 1) % 256) ∧
     (∀ (ch code refuv : Nat) (x : Int), x = code * refuv * (s.chip.reg (Reg.chGain ch)).toInt → ∃ q : Int,
       s.chip.corrected ch code refuv = sat ((s.chip.reg (Reg.chOfs ch)).toInt + q) ∧ q * 2 ^ 40 ≤ x + 2 ^ 39 ∧
         x - 2 ^ 39 ≤ q * 2 ^ 40) ∧
     (∀ t0, s.chip.up .afe = true → s.chip.adc.settleAt = some t0 → ∃ t, exec .referenceSettled s = .next t ∧
       t.chip.adc.settled = !s.chip.adc.refLost ∧ t.chip.adc.settleAt = none) ∧
     (s.chip.up .afe = true → ∃ t, exec (.referenceCheck false) s = .next t ∧ t.chip.adc.settled = false ∧
       t.chip.adc.refLost = true ∧ t.chip.bit Reg.adcstat 7 = true) ∧
     (s.chip.up .afe = true → s.chip.adc.refLost = true → s.chip.adc.inRange = 1 → s.chip.adc.settleAt = none →
       ∃ t, exec (.referenceCheck true) s = .next t ∧ t.chip.adc.refLost = false ∧ t.chip.adc.settled = true) ∧
     (MayWrite s m Reg.adcref → fld v 0 2 = 3 → Does s (.adcrefWrite m v) (ok (s.chip.setBit Reg.adcstat 4))) ∧
     (MayWrite s m Reg.adcref → fld v 0 2 < 3 → fld v 0 2 ≠ s.chip.rf Reg.adcref 0 2 →
       (∀ n, n < 8 → s.chip.bit (Reg.cmpCfg n) 2 = false) →
       ∃ t, exec (.adcrefWrite m v) s = .next t ∧ t.chip.adc.settled = false ∧
         t.chip.adc.settleAt = some s.chip.tg.tick ∧ t.chip.answer = .done) ∧
     (MayWrite s m Reg.injreq → (s.chip.conv 0).busy.isSome = true → (s.chip.conv 1).busy.isSome = true →
       fld v 0 5 < 24 → fld v 8 2 = 0 →
       (s.chip.adc.injQ.length < 4 → Does s (.injreq m v) (ok { s.chip with
         adc.injQ := s.chip.adc.injQ ++ [InjReq.mk (fld v 0 5) 0] })) ∧
       (4 ≤ s.chip.adc.injQ.length → Does s (.injreq m v)
         (ok ((s.chip.setBit Reg.adcstat 5).raise 106 (fld v 0 5))))) ∧
     (MayWrite s m Reg.injreq → fld v 8 2 = 3 → Does s (.injreq m v) (ok (s.chip.setBit Reg.adcstat 4)))) ∧
  (∀ (s : State) (m : Master) (k : Fin 2) (v : Word), s.chip.Inv →
     (MayWrite s m Reg.adccal → (s.chip.conv 0).busy.isSome = true → (s.chip.conv 1).busy.isSome = true →
       s.chip.adcEn 0 = true → (s.chip.conv 0).calReq = false →
       (s.chip.adc.settled = true → Does s (.adccal m 1) (ok (s.chip.modConv 0 fun w => { w with
         calReq := true, calAt := s.chip.tg.tick, calSeq := false
         calWait := (s.chip.adc.injQ.filter fun r => r.conv == 1).length }))) ∧
       (s.chip.adc.settled = false → Does s (.adccal m 1) (ok (s.chip.setBit Reg.adcstat 4)))) ∧
     (s.chip.up .afe = true → (s.chip.conv k.val).calRun = true → (s.chip.conv k.val).busy = none →
       (s.chip.conv k.val).calStep < 16 → s.chip.adc.injQ = [] →
       Does s (.calibrationStepDone k) (s.chip.modConv k.val fun w => { w with calStep := w.calStep + 1 })) ∧
     (∀ offset gain, s.chip.up .afe = true → (s.chip.conv k.val).calRun = true → (s.chip.conv k.val).busy = none →
       15 ≤ (s.chip.conv k.val).calStep → s.chip.adc.cal.length = 2 →
       ∃ t, exec (.calibrationDone k offset gain) s = .next t ∧ t.chip.adc.cal.getD k.val 0 = gain ++ offset ∧
         ∃ r ∈ (s.chip.calDone k.val offset gain).raised, r.ev = 108 ∧ r.src = k.val) ∧
     (s.chip.up .afe = true → s.chip.up .tgrid = true → s.chip.adcEn k.val = true → s.chip.adc.conv.length = 2 →
       s.chip.bit (Reg.rseqCtl k.val) 8 = true → (s.chip.conv k.val).passEnd = true → (s.chip.conv k.val).busy = none →
       (s.chip.conv k.val).vtx = [] → (s.chip.conv k.val).calReq = false → (s.chip.conv k.val).calRun = false →
       s.chip.adc.injQ = [] → s.chip.adc.vtxNext = [] →
       ∃ t x, exec (.regularPassStart k) s = .next t ∧ (t.chip.conv k.val).busy = some x ∧ x.cls = .regular ∧
         x.ch = fld (s.chip.reg (rseqReg k 1)) 0 5 ∧ (t.chip.conv k.val).pos = 1 ∧
         (t.chip.conv k.val).passEnd = false) ∧
     (∀ w : Fin 5, w ≠ 0 → MayWrite s m (rseqReg k w) →
       (s.chip.bit (Reg.rseqCtl k.val) 8 = true → Does s (.rseqWrite m k w v) (ok (s.chip.setBit Reg.adcstat 4))) ∧
       (s.chip.bit (Reg.rseqCtl k.val) 8 = false → (∀ j, j < 4 → fld v (8 * j) 5 < 24) →
         Does s (.rseqWrite m k w v) (ok (s.chip.plainWrite (rseqReg k w) v)))) ∧
     (MayWrite s m (rseqReg k 0) → s.chip.bit (Reg.rseqCtl k.val) 8 = true →
       fld v 0 4 ≠ s.chip.rf (Reg.rseqCtl k.val) 0 4 →
       Does s (.rseqWrite m k 0 v) (ok (s.chip.setBit Reg.adcstat 4))))

/-- The gate's way from OPEN to CLOSED and back, while no condition of Table 10.4 stands: CONNECT with its key and nothing
against it goes to CHECK, LEAKT to PRECHG, RAMPT with the switch node in agreement to CLOSE, both contacts closed to
CLOSED; DISCONNECT goes to OPENING, and both contacts open, the current off and the drive low to OPEN. A CONNECT that
anything forbids says so in GSTAT and changes nothing else; a pre-charge that does not end in time goes back to OPEN. -/
def Obligations.connecting_and_disconnecting : Prop :=
  ∀ (s : State) (m : Master) (i : Fin 2), s.chip.Inv → s.chip.up .afe = true →
    (MayWrite s m Reg.gcmd → s.chip.pwr.cur = .standby → s.chip.gate.gst = .open_ → s.chip.gate.cause = 0 →
      s.chip.pwr.latch = false → s.chip.pwr.fuseDiff = false → s.chip.pins.gateFltLow = false →
      s.chip.confbOpen = true → s.chip.sensed = true → s.chip.adc.settled = true →
      ((s.chip.reg Reg.uvlim).toNat : Int) ≤ s.chip.gate.vrack → s.chip.gate.vrack ≤ (s.chip.reg Reg.ovlim).toNat →
      s.chip.leaks = false → ∃ t, exec (.connect m 0x6A7E0001) s = .next t ∧ t.chip.gate.gst = .check ∧
        t.chip.gate.since = s.chip.tg.tick ∧ t.chip.gate.cause = 0) ∧
    (MayWrite s m Reg.gcmd → s.chip.pwr.latch = true → ∃ t, exec (.connect m 0x6A7E0001) s = .next t ∧
      t.chip.gate = s.chip.gate ∧ t.chip.bit Reg.gstat 4 = true ∧ t.chip.bit Reg.gstat 6 = true) ∧
    (s.chip.gateLevels = [] →
      (s.chip.gate.gst = .check → ∃ t, exec .leaktElapsed s = .next t ∧ t.chip.gate.gst = .prechg) ∧
      (s.chip.gate.gst = .ramp → s.chip.agrees s.chip.gate.vrack s.chip.gate.vsw = true → s.chip.up .tgrid = true →
        ∃ t, exec .ramptElapsed s = .next t ∧ t.chip.gate.gst = .close) ∧
      (s.chip.gate.gst = .close → s.chip.pins.confb.length = 2 → s.chip.confb (1 - i.val) = true →
        ∃ t, exec (.confbChange i true) s = .next t ∧ t.chip.gate.gst = .closed) ∧
      (s.chip.gate.gst = .closed → MayWrite s m Reg.gcmd →
        ∃ t, exec (.disconnect m 0x6A7E0002) s = .next t ∧ t.chip.gate.gst = .opening ∧ t.chip.gate.conHigh = true)) ∧
    (s.chip.gate.gst = .opening → s.chip.gate.conHigh = true →
      ∃ t, exec .condlyElapsed s = .next t ∧ t.chip.gate.conHigh = false ∧ t.chip.bit Reg.gstat 14 = true) ∧
    (s.chip.gate.gst = .opening → s.chip.gate.conHigh = false → s.chip.gate.ioff = true → s.chip.pins.confb.length = 2 →
      s.chip.confb (1 - i.val) = false → ∃ t, exec (.confbChange i false) s = .next t ∧ t.chip.gate.gst = .open_) ∧
    (s.chip.gate.gst = .prechg → s.chip.gate.pretDone = true → ∃ t, exec .pretmoElapsed s = .next t ∧
      t.chip.gate.gst = .open_ ∧ t.chip.bit Reg.gstat 12 = true)

/-- Each protection cause of Table 10.4 that is an event of its own, not yet set: its bit of TRIPCAUSE sets in the
tick, and the gate leaves CLOSED, or what else its test is in, for TRIPPED. GATE's register commands: in OPEN alone,
CAUSECLR clears the bits written as ones whose condition is absent and no other; OVLIM, UVLIM and OCLIM take what is
written, held to the fused limit with FCLAMP; ELDCMT loads the energy counters in OPEN and is refused elsewhere; a
comparator's words are refused with event 109 where the comparator acts and the gate is not OPEN or CHECK. -/
def Obligations.protection_and_gate_registers : Prop :=
  (∀ (s : State) (n : Fin 8) (i : Fin 2) (t0 : Nat), s.chip.Inv → s.chip.up .afe = true → s.chip.gate.cause = 0 →
     (s.chip.gate.gst = .prechg → s.chip.gate.pretDone = false →
       ∃ t, exec .pretElapsed s = .next t ∧ t.chip.gate.pretDone = decide (s.chip.gate.ishAbs < (s.chip.reg Reg.preshi).toNat) ∧
         ((s.chip.reg Reg.preshi).toNat ≤ s.chip.gate.ishAbs →
           t.chip.gate.gst = .tripped ∧ t.chip.gate.cause.getLsbD 7 = true) ∧
         (s.chip.gate.ishAbs < (s.chip.reg Reg.preshi).toNat → t.chip.gate.gst = .prechg)) ∧
     (s.chip.gate.gst = .ramp → s.chip.agrees s.chip.gate.vrack s.chip.gate.vsw = false →
       ∃ t, exec .ramptmoElapsed s = .next t ∧ t.chip.gate.gst = .tripped ∧ t.chip.gate.cause.getLsbD 8 = true) ∧
     (s.chip.gate.gst = .closed → s.chip.gate.conBad.getD i.val none = some t0 →
       ∃ t, exec (.contElapsed i) s = .next t ∧ t.chip.gate.gst = .tripped ∧ t.chip.gate.cause.getLsbD 10 = true) ∧
     (s.chip.gate.gst = .closed → ∃ t, exec .senseTimeout s = .next t ∧ t.chip.gate.gst = .tripped ∧
       t.chip.gate.cause.getLsbD 12 = true) ∧
     (s.chip.gate.gst = .closed → ∃ t, exec (.gateFlt true) s = .next t ∧ t.chip.gate.gst = .tripped ∧
       t.chip.gate.cause.getLsbD 11 = true ∧ t.chip.gate.conHigh = true) ∧
     (s.chip.gate.gst = .closed → s.chip.rf (Reg.cmpCfg n.val) 0 2 ≠ 0 → s.chip.bit (Reg.cmpCfg n.val) 2 = true →
       s.chip.gate.cmpOut.length = 8 →
       ∃ t, exec (.comparatorQualified n true) s = .next t ∧ t.chip.gate.gst = .tripped ∧
         t.chip.gate.cause.getLsbD 0 = true ∧ t.chip.bit Reg.cmpstat (8 + n.val) = true) ∧
     (s.chip.rf (Reg.cmpCfg n.val) 0 2 ≠ 0 → s.chip.bit (Reg.cmpCfg n.val) 2 = false →
       Does s (.comparatorQualified n true)
         ({ s.chip with gate.cmpOut := s.chip.gate.cmpOut.set n.val true }.setBit Reg.cmpstat (16 + n.val))) ∧
     (s.chip.gate.gst = .closed → s.chip.bit Reg.gcfg 2 = true → s.chip.up .ifc = true → s.chip.tmax 0 = 0 →
       (s.chip.input 0).unstable = false → (s.chip.input 0).level = true →
       ∃ t, exec .extTrip s = .next t ∧ t.chip.gate.gst = .tripped ∧ t.chip.gate.cause.getLsbD 1 = true)) ∧
  (∀ (s : State) (m : Master) (n : Fin 8) (w : CmpWord) (v : Word), s.chip.Inv →
     (MayWrite s m Reg.causeclr → s.chip.gate.gst = .open_ → ∃ t, exec (.causeclr m v) s = .next t ∧
       t.chip.gate.gst = .open_ ∧ t.chip.answer = .done ∧
       ∀ k, k < 13 → t.chip.gate.cause.getLsbD k =
         (s.chip.gate.cause.getLsbD k && !(v.getLsbD k && s.chip.causeAbsent k))) ∧
     (MayWrite s m Reg.causeclr → s.chip.gate.gst ≠ .open_ → Does s (.causeclr m v) (ok s.chip)) ∧
     (MayWrite s m Reg.ovlim → ∃ t, exec (.limitWrite m .ovlim v) s = .next t ∧
       t.chip.reg Reg.ovlim = word (Nat.min v.toNat s.chip.fovp) ∧ (s.chip.fovp < v.toNat → t.chip.bit Reg.gstat 13 = true)) ∧
     (MayWrite s m Reg.uvlim → ∃ t, exec (.limitWrite m .uvlim v) s = .next t ∧
       t.chip.reg Reg.uvlim = word (Nat.max v.toNat s.chip.fuvp) ∧ (v.toNat < s.chip.fuvp → t.chip.bit Reg.gstat 13 = true)) ∧
     (MayWrite s m Reg.oclim → ∃ t, exec (.limitWrite m .oclim v) s = .next t ∧
       t.chip.reg Reg.oclim = word (Nat.min v.toNat s.chip.focp) ∧ (s.chip.focp < v.toNat → t.chip.bit Reg.gstat 13 = true)) ∧
     (MayWrite s m Reg.eldcmt → s.chip.gate.gst = .open_ → Does s (.eldcmt m 3) (ok { s.chip with
       gate := { s.chip.gate with
         eout := (s.chip.reg Reg.eldlo).toNat + 2 ^ 32 * (s.chip.reg Reg.eldhi).toNat, eoutRes := 0
         ein := (s.chip.reg Reg.eldlo).toNat + 2 ^ 32 * (s.chip.reg Reg.eldhi).toNat, einRes := 0 } })) ∧
     (MayWrite s m Reg.eldcmt → s.chip.gate.gst ≠ .open_ → Does s (.eldcmt m 3) (ok (s.chip.setBit Reg.gstat 19))) ∧
     (∀ a, a = (match w with | .cfg => Reg.cmpCfg n.val | .th => Reg.cmpTh n.val) → MayWrite s m a →
       (s.chip.bit (Reg.cmpCfg n.val) 2 = true → s.chip.gate.gst = .closed →
         Does s (.cmpConfigWrite m n w v) (ok ((s.chip.setBit Reg.cmpstat 24).raise 109))) ∧
       (s.chip.gate.gst = .open_ → s.chip.rf (Reg.cmpCfg n.val) 0 2 < 3 → (w = .cfg → fld v 0 2 < 3) →
         (s.chip.plainWrite a v).rf (Reg.cmpCfg n.val) 0 2 ≠ 0 →
         Does s (.cmpConfigWrite m n w v) (ok (s.chip.plainWrite a v)))))

/-- The set-point link's answers to a frame under the expected number whose check passes: NOP and reads are accepted
with 0xE1 and their blocks, a GOAL for a loop that takes goals and inside its limits joins the goal queue; a loop that
does not gives 0x96, a goal outside 0x87, a full queue 0x78 without being consumed, and a reserved form 0xA5. Each
frame consumed counts E. A SYNC sets E. A frame whose check fails gives 0xC3. A frame that repeats the last one
consumed is answered again, an acceptance as 0xD2, and changes nothing more; one that is ahead or behind gives 0xB4
with event 104; an abandoned transaction is counted; a pulse owed after a NOTRD, or one that repeats while notices
wait, lasts 200 ticks; NQCLR empties the notice queue; and a cleared EN ends the pulse. -/
def Obligations.set_point_link : Prop :=
  (∀ (s : State) (f : SplFields) (w : Word), s.chip.Inv → s.chip.splOn = true → s.chip.spl.e < 2 ^ 24 →
     f.seq.toNat = s.chip.spl.e % 4 →
     let took (i : Instr) (op : Nat) (rep : List Byte) : Prop := w = word (bytesVal (splBytes f op)) →
       ∃ t, exec i s = .next t ∧ t.chip.spl.e = (s.chip.spl.e + 1) % 2 ^ 24 ∧ t.chip.spl.reply = rep ∧
         t.chip.spl.lastFrame = some w
     (splPasses f 0 s.chip.spl.e = true → f.loop = 0 → f.arg = 0 → took (.nop f) 0 [0xE1]) ∧
     (splPasses f 0 s.chip.spl.e = true → f.loop ≠ 0 → took (.nop f) 0 [0xA5]) ∧
     (splPasses f 1 s.chip.spl.e = true →
       (s.chip.splModeBad f.loop.val = true → took (.goal f) 1 [0x96]) ∧
       (s.chip.splModeBad f.loop.val = false → s.chip.splOutside f.loop.val f.arg.toNat = true → took (.goal f) 1 [0x87]) ∧
       (s.chip.splModeBad f.loop.val = false → s.chip.splOutside f.loop.val f.arg.toNat = false →
         (s.chip.spl.goals.length < 8 → took (.goal f) 1 [0xE1] ∧ ∃ t, exec (.goal f) s = .next t ∧
           t.chip.spl.goals = s.chip.spl.goals ++ [Goal.mk f.loop.val f.arg.toNat s.chip.spl.e s.chip.tg.tick]) ∧
         (8 ≤ s.chip.spl.goals.length → ∃ t, exec (.goal f) s = .next t ∧ t.chip.spl.e = s.chip.spl.e ∧
           t.chip.spl.reply = [0x78] ∧ t.chip.spl.goals = s.chip.spl.goals))) ∧
     (∀ x rest, splPasses f 2 s.chip.spl.e = true → f.loop = 0 → f.arg = 0 → s.chip.spl.notices = x :: rest →
       x.tick < s.chip.tg.tick → took (.notrd f) 2 (0xE1 :: s.chip.splBlock (natBytes 3 x.body.lseq ++
         natBytes 1 (x.body.loop + 4 * x.body.kind + 16 * b2n s.chip.spl.lost) ++ natBytes 4 x.seq))) ∧
     (splPasses f 3 s.chip.spl.e = true → f.arg = 0 → took (.measrd f) 3 (0xE1 :: s.chip.splBlock
       (natBytes 4 (bitsI 32 (s.chip.loopSt f.loop.val).vmeas) ++ natBytes 4 (bitsI 32 (s.chip.loopSt f.loop.val).tgt)))) ∧
     (∀ op : BitVec 4, 3 < op.toNat → op ≠ 15 → splPasses f op.toNat s.chip.spl.e = true →
       took (.reservedOp op f) op.toNat [0xA5]) ∧
     (splPasses f 15 0xFFFFFFFF = true → ∃ t, exec (.sync f) s = .next t ∧ t.chip.spl.e = f.arg.toNat ∧
       t.chip.spl.reply = [0xE1] ∧ t.chip.bit Reg.splstat 7 = true) ∧
     (splPasses f 0 s.chip.spl.e = false → ∃ t, exec (.nop f) s = .next t ∧ t.chip.spl.e = s.chip.spl.e ∧
       t.chip.spl.reply = [0xC3] ∧ t.chip.bit Reg.splstat 3 = true)) ∧
  (∀ (s : State) (m : Master) (f : SplFields) (v : Word), s.chip.Inv →
     (s.chip.splOn = true → s.chip.spl.e < 2 ^ 24 → (f.seq.toNat + 1) % 4 = s.chip.spl.e % 4 →
       splPasses f 0 ((s.chip.spl.e + 2 ^ 24 - 1) % 2 ^ 24) = true →
       (s.chip.spl.lastFrame = some (word (bytesVal (splBytes f 0))) → s.chip.spl.lastByte = 0xE1 →
         ∃ t, exec (.nop f) s = .next t ∧ t.chip.spl.e = s.chip.spl.e ∧
           t.chip.spl.reply = 0xD2 :: s.chip.spl.lastBlock ∧ t.chip.spl.goals = s.chip.spl.goals) ∧
       (s.chip.spl.lastFrame ≠ some (word (bytesVal (splBytes f 0))) →
         ∃ t, exec (.nop f) s = .next t ∧ t.chip.spl.e = s.chip.spl.e ∧ t.chip.spl.reply = [0xB4] ∧
           t.chip.bit Reg.splstat 4 = true)) ∧
     (s.chip.splOn = true → Does s .transactionAbandoned ((s.chip.setBit Reg.splstat 5).count Reg.splcntb 16 16 1)) ∧
     (s.chip.up .ifc = true → s.chip.spl.notices ≠ [] → s.chip.spl.pulseDue = true → s.chip.bit Reg.splctl 0 = true →
       s.chip.bit Reg.splctl 1 = true → s.chip.spl.pulseEnd ≤ s.chip.tg.tick →
       Does s .spalertPulse { s.chip with spl.pulseDue := false, spl.pulseEnd := s.chip.tg.tick + 200 }) ∧
     (s.chip.up .ifc = true → s.chip.spl.notices ≠ [] → s.chip.spl.pulseDue = false → s.chip.rf Reg.splctl 8 8 ≠ 0 →
       s.chip.splOn = true → s.chip.bit Reg.splctl 1 = true → s.chip.up .tgrid = true →
       s.chip.spl.pulseEnd ≤ s.chip.tg.tick → ∃ t, exec .spalertPulse s = .next t ∧
         t.chip.spl.pulseEnd = Nat.max s.chip.tg.tick (s.chip.spl.repAt + s.chip.rf Reg.splctl 8 8 * 100000) + 200) ∧
     (MayWrite s m Reg.splctl → v.getLsbD 2 = true → v.getLsbD 0 = true → Does s (.nqclr m v)
       (ok { s.chip.plainWrite Reg.splctl v with spl := { s.chip.spl with notices := [], pulseDue := false } })) ∧
     (MayWrite s m Reg.splctl → v.getLsbD 2 = false → v.getLsbD 0 = true →
       Does s (.splEnable m v) (ok (s.chip.plainWrite Reg.splctl v))) ∧
     (MayWrite s m Reg.splctl → v.getLsbD 2 = false → v.getLsbD 0 = false →
       Does s (.splEnable m v) (ok { s.chip.plainWrite Reg.splctl v with spl.pulseEnd := 0 })))

/-! The two-wire buses (chapter 17), updates and fuses (chapter 18). -/

namespace Sys2Proof.Claims

/-- TWB0 answers: IFC up, enabled, awake. -/
structure BusReady (c : Chip) : Prop where
  up : c.up .ifc = true
  on : c.bit Reg.twbctl 0 = true
  awake : c.twb0.asleep = false

/-- A read of command `code` is acknowledged and answered with `d`, for a block with its count in front, and the PEC byte
over the addresses, the code and the answer. -/
def Reads (s : State) (i : Instr) (code : Nat) (block : Bool) (d : List Byte) : Prop :=
  let a := 2 * s.chip.twbAddr
  let body := (if block then [BitVec.ofNat 8 d.length] else []) ++ d
  ∃ t, exec i s = .next t ∧ t.chip.twb0.nacked = false ∧
    t.chip.twb0.reply = body ++ [pecOf ([BitVec.ofNat 8 a, BitVec.ofNat 8 code, BitVec.ofNat 8 (a + 1)] ++ body)]

/-- A transfer is not acknowledged, with no answer, and STATUS_CML bit 7 is set. -/
def Unsupported (s : State) (i : Instr) : Prop :=
  ∃ t, exec i s = .next t ∧ t.chip.twb0.nacked = true ∧ t.chip.twb0.reply = [] ∧ t.chip.twb0.cml.getLsbD 7 = true

/-- TWB0 with the bus active until now, and the transfer in hand acknowledged. -/
def active (c : Chip) : Chip := { c with twb0 := { c.twb0 with idleAt := c.now, nacked := false, reply := [] } }

end Sys2Proof.Claims

/-- PMBus reads: each command answers its constant, its state, or its reading in the number format its page gives it, with
the packet error code behind it; a code of no command, a read of a write-only one, and a page that the command does not
take are not acknowledged. -/
def Obligations.pmbus_reads : Prop :=
  ∀ s : State, BusReady s.chip → s.chip.Inv →
    (∀ p ∈ [(Instr.page .read, 0x00, false, [BitVec.ofNat 8 s.chip.twb0.page]),
        (.writeProtect .read, 0x10, false, [BitVec.ofNat 8 s.chip.twb0.wprot]), (.capability .read, 0x19, false, [0xD0]),
        (.statusCml .read, 0x7E, false, [s.chip.twb0.cml]), (.pmbusRevision .read, 0x98, false, [0x44]),
        (.mfrId .read, 0x99, true, [0x59, 0x55, 0x4E, 0x47, 0x41, 0x54, 0x55, 0x53]),
        (.mfrModel .read, 0x9A, true, [0x5A, 0x53, 0x31, 0x32, 0x38, 0x30]), (.mfrRevision .read, 0x9B, true, [0x42, 0x31]),
        (.mfrWinAddr .read, 0xD0, true, natBytes 4 s.chip.twb0.winCur ++ natBytes 1 s.chip.twb0.winCnt),
        (.mfrAlertEvents .read, 0xD7, true, (List.range 4).flatMap fun k => wordBytes (s.chip.reg (Reg.alrtpend k))),
        (.mfrReqEvents .read, 0xD8, true, ((List.range 4).flatMap fun k => wordBytes (s.chip.reg (Reg.ibrpend k))) ++
          natBytes 1 ((if s.chip.twb0.tlm then 1 else 0) + (if s.chip.twb0.recNf then 2 else 0)))],
      Reads s p.1 p.2.1 p.2.2.1 p.2.2.2) ∧
    (s.chip.onePage = true → ∀ p ∈ [(Instr.voutMode .read, 0x20, [(0x1C : Byte)]),
        (.statusByte .read, 0x78, [s.chip.pageStat.extractLsb' 0 8]),
        (.statusWord .read, 0x79, [s.chip.pageStat.extractLsb' 0 8, s.chip.pageStat.extractLsb' 8 8]),
        (.statusMfrSpecific .read, 0x80, [s.chip.pageStat.extractLsb' 16 8]),
        (.operation .read, 0x01, [if s.chip.pageStat.getLsbD 6 then 0 else 0x80])],
      Reads s p.1 p.2.1 false p.2.2) ∧
    (s.chip.onePage = false → ∀ i ∈ [Instr.voutMode .read, .statusByte .read, .statusWord .read, .statusMfrSpecific .read,
      .readVout .read, .operation .read], Unsupported s i) ∧
    (s.chip.twb0.page = 0x80 → s.chip.up .afe = true →
      Reads s (.readVin .read) 0x88 false (natBytes 2 (linear11 s.chip.gate.vrack 1000)) ∧
      Reads s (.readIout .read) 0x8C false (natBytes 2 (linear11 s.chip.gate.ish 1000)) ∧
      Reads s (.readPout .read) 0x96 false (natBytes 2 (linear11 s.chip.gate.psh 10))) ∧
    (s.chip.twb0.page = 0x80 → s.chip.up .hub = true →
      Reads s (.readTemperature1 .read) 0x8D false (natBytes 2 (linear11 s.chip.therm.die 64)) ∧
      (0 ≤ (s.chip.loopSt 0).vmeas → Reads s (.readVout .read) 0x8B false
        (natBytes 2 (Nat.min 0xFFFF ((16 * (s.chip.loopSt 0).vmeas.toNat + 500) / 1000)))) ∧
      Reads s (.voutCommand .read) 0x21 false
        (natBytes 2 (Nat.min 0xFFFF ((16 * (s.chip.loopSt 0).goal + 500) / 1000)))) ∧
    (s.chip.up .sup = true →
      Reads s (.mfrRecCursor .read) 0xD2 false (natBytes 2 (s.chip.rf (Reg.cursor 1) 0 13)) ∧
      Reads s (.mfrRecFreeze .read) 0xD4 false [if s.chip.recd.frozen then 1 else 0] ∧
      Reads s (.mfrUpdCtrl .read) 0xD5 true (wordBytes s.chip.updstat) ∧
      Reads s (.mfrEvseq .read) 0xD9 true (natBytes 4 s.chip.ev.seq) ∧
      (s.chip.up .nvm = true → Reads s (.mfrRecRead .read) 0xD3 true (natBytes 1
        (s.chip.viewStat (s.chip.rf (Reg.cursor 1) 0 13)).toNat ++
          (s.chip.viewBytes (s.chip.rf (Reg.cursor 1) 0 13)).1.take 32))) ∧
    (s.chip.up .aon = true → s.chip.twb0.winCnt = 1 → s.chip.twb0.winCur = Reg.devid →
      (s.chip.reg Reg.winlo).toNat ≤ Reg.devid → Reg.devid ≤ (s.chip.reg Reg.winhi).toNat →
      Reads s (.mfrWinData .read) 0xD1 true (wordBytes (s.chip.regRead .window Reg.devid))) ∧
    (∀ code x, Unsupported s (.unsupportedCommand code x)) ∧
    Unsupported s (.clearFaults .read) ∧ Unsupported s (.mfrUpdData .read)

/-- PMBus writes: a write with no PEC, or with the right one, that the protection permits and whose length is right has its
effect; a wrong PEC discards it with event 99, a missing one is refused where it is asked for, and a write that is
protected or malformed is refused, each with its bit of STATUS_CML and nothing done. -/
def Obligations.pmbus_writes : Prop :=
  ∀ (s : State) (v : Byte) (d : List Byte), BusReady s.chip → s.chip.bit Reg.twbctl 1 = false →
    (s.chip.twb0.wprot = 0 →
      ((pageKind v.toNat).isSome = true → Does s (.page (.write [v] none))
        { active s.chip with twb0 := { (active s.chip).twb0 with page := v.toNat } }) ∧
      (s.chip.twb0.hcq.length < 8 → Does s (.operation (.write [v] none)) { active s.chip with
        twb0 := { (active s.chip).twb0 with
          hcq := s.chip.twb0.hcq ++ [HostCmd.mk s.chip.twb0.page 0x01 v.toNat true] } }) ∧
      (s.chip.loopPage = true → s.chip.twb0.hcq.length < 8 → d.length = 2 →
        Does s (.voutCommand (.write d none)) { active s.chip with
          twb0 := { (active s.chip).twb0 with
            hcq := s.chip.twb0.hcq ++ [HostCmd.mk s.chip.twb0.page 0x21 (bytesVal d) false] } }) ∧
      (8 ≤ s.chip.twb0.hcq.length → ∃ t, exec (.operation (.write [v] none)) s = .next t ∧
        t.chip.twb0.nacked = true ∧ t.chip.twb0.hcq = s.chip.twb0.hcq ∧ t.chip.bit Reg.twbstat 8 = true) ∧
      (d.length = 5 → 1 ≤ bytesVal (d.drop 4) → bytesVal (d.drop 4) ≤ 8 → Does s (.mfrWinAddr (.write d none))
        { active s.chip with
          twb0 := { (active s.chip).twb0 with winCur := bytesVal (d.take 4), winCnt := bytesVal (d.drop 4) } }) ∧
      (d.length = 2 → s.chip.up .sup = true → Does s (.mfrRecCursor (.write d none))
        ((active s.chip).regWrite (Reg.cursor 1) (word (bytesVal d)))) ∧
      (d.length = 8 → s.chip.up .sup = true → s.chip.upd.phase = 1 → s.chip.upd.owner = some false →
        s.chip.upd.rx.length < 128 → Does s (.mfrUpdData (.write d none)) { active s.chip with
          upd := { s.chip.upd with rx := s.chip.upd.rx ++ d, got := s.chip.upd.got + 8 } })) ∧
    (v = 0 ∨ v = 0x20 ∨ v = 0x40 ∨ v = 0x80 → Does s (.writeProtect (.write [v] none))
      { active s.chip with twb0 := { (active s.chip).twb0 with wprot := v.toNat } }) ∧
    (∀ i, pageIndex s.chip.twb0.page = some i → Does s (.clearFaults (.write [] none))
      { (active s.chip).setReg (Reg.pstat i) 0 with twb0 := { (active s.chip).twb0 with cml := 0 } }) ∧
    (s.chip.twb0.wprot = 0x80 → ∃ t, exec (.page (.write [v] none)) s = .next t ∧ t.chip.twb0.page = s.chip.twb0.page ∧
      t.chip.twb0.cml.getLsbD 6 = true) ∧
    (∀ p, p ≠ pecOf [BitVec.ofNat 8 (2 * s.chip.twbAddr), 0x00, v] →
      ∃ t, exec (.page (.write [v] (some p))) s = .next t ∧ t.chip.twb0.page = s.chip.twb0.page ∧
        t.chip.twb0.cml.getLsbD 5 = true ∧ t.chip.twb0.nacked = true ∧ t.chip.bit Reg.twbstat 6 = true) ∧
    (s.chip.twb0.wprot = 0 → (pageKind v.toNat).isSome = true →
      Does s (.page (.write [v] (some (pecOf [BitVec.ofNat 8 (2 * s.chip.twbAddr), 0x00, v]))))
        { active s.chip with twb0 := { (active s.chip).twb0 with page := v.toNat } })

/-- TWB0 besides its commands: an alert or request response that wins answers the address and takes the line back
unless something was raised meanwhile; sleep after the idle time, and the address not acknowledged that ends it; a
stuck line counts and raises its event; a request pulse follows the last by its interval; the posted queue pops; and
TLMRDY asks for attention. The controllers. GO on an idle host bus sends the address, the data and, where asked, the
PEC; lost arbitration raises event 98 and backs off, and after the last retry ends with ARBFAIL; the end sets DONE or
NACK. GO on the idle local bus sends its bytes, after a recovery where SDA was low; its end stores what was read; a
stretched clock ends it. -/
def Obligations.host_and_local_bus : Prop :=
  (∀ (s : State) (m : Master) (v : Word) (more : Bool), s.chip.Inv →
     (BusReady s.chip → s.chip.alertDriven = true →
       (∃ t, exec (.alertResponse true more) s = .next t ∧ t.chip.twb0.reply =
         [BitVec.ofNat 8 (2 * s.chip.twbAddr), pecOf [0x19, BitVec.ofNat 8 (2 * s.chip.twbAddr)]]) ∧
       ∃ t, exec (.alertResponse false more) s = .next t ∧ t.chip.twb0.reply = []) ∧
     (BusReady s.chip → s.chip.reqPending = true →
       ∃ t, exec (.requestResponse true more) s = .next t ∧ t.chip.twb0.reply =
         [BitVec.ofNat 8 (2 * s.chip.twbAddr), pecOf [0x15, BitVec.ofNat 8 (2 * s.chip.twbAddr)]]) ∧
     (s.chip.up .ifc = true → s.chip.bit Reg.twbctl 2 = true → s.chip.alertDriven = false → s.chip.reqPending = false →
       s.chip.twb0.cBusy = false → Does s .sleep
         { s.chip.elapseTo (s.chip.twb0.idleAt + orOne (s.chip.rf Reg.timcfg 0 8) * 100000) with twb0.asleep := true }) ∧
     (s.chip.up .ifc = true → s.chip.twb0.asleep = true → ∃ t, exec .wakeNack s = .next t ∧
       t.chip.twb0.asleep = false ∧ t.chip.twb0.nacked = true ∧ t.chip.bit Reg.twbstat 7 = true) ∧
     (s.chip.up .ifc = true → ∃ t, exec .sclTimeout s = .next t ∧ t.chip.twb0.cBusy = false ∧
       t.chip.bit Reg.twbstat 4 = true) ∧
     (s.chip.up .ifc = true → Does s .sdaTimeout (((s.chip.setBit Reg.twbstat 5).raise 97).count Reg.twbcnt 8 8 1)) ∧
     (s.chip.reqPending = true → s.chip.twb0.cBusy = false → ∀ t0, s.chip.twb0.pulseAt = some t0 →
       ∃ t, exec (.inBandRequestPulse false) s = .next t ∧ t.chip.twb0.pulseAt = some t.chip.now ∧
         t.chip.now = Nat.max s.chip.now (t0 + Nat.max 10 (s.chip.rf Reg.timcfg 8 8) * 100000)) ∧
     (MayWrite s m Reg.hcmdpop → v.getLsbD 0 = true →
       Does s (.hcmdpop m v) (ok { s.chip with twb0.hcq := s.chip.twb0.hcq.tail })) ∧
     (MayWrite s m Reg.notice → v.getLsbD 0 = true → Does s (.tlmrdy m v)
       (ok { s.chip.plainWrite Reg.notice v with twb0 := { s.chip.twb0 with tlm := true, reqAct := true } }))) ∧
  (∀ (s : State) (m : Master) (v : Word), s.chip.Inv →
     (MayWrite s m Reg.ctlctl → v.getLsbD 24 = true → s.chip.twb0.cBusy = false → s.chip.twb0.cBack = none →
       (Does s (.controllerGo m v .runs) (ok { s.chip.plainWrite Reg.ctlctl v with
         twb0 := { s.chip.twb0 with
           cBusy := true, cTries := 0, cLoss := 0, cBack := none, ctlOut := (s.chip.plainWrite Reg.ctlctl v).ctlBytes } })) ∧
       ∃ t, exec (.controllerGo m v .lost) s = .next t ∧ t.chip.twb0.cLoss = 1 ∧
         (t.chip.twb0.cBusy = true ↔ 0 < fld ((s.chip.plainWrite Reg.ctlctl v).reg Reg.ctlctl) 17 3)) ∧
     (∀ t0 a, s.chip.up .ifc = true → s.chip.twb0.cBusy = true → s.chip.twb0.cBack = some t0 →
       ∃ t, exec (.backoffExpiry a) s = .next t ∧ t.chip.now = Nat.max s.chip.now t0 ∧
         (a = .runs → t.chip.twb0.cBack = none ∧ t.chip.twb0.ctlOut = s.chip.ctlBytes)) ∧
     (∀ nacked, s.chip.up .ifc = true → s.chip.twb0.cBusy = true → s.chip.twb0.cBack = none →
       ∃ t, exec (.controllerDone nacked) s = .next t ∧ t.chip.twb0.cBusy = false ∧
         t.chip.bit Reg.ctlstat (if nacked then 2 else 1) = true) ∧
     (MayWrite s m Reg.lxfer → s.chip.twb1.busy = false → v.getLsbD 24 = true → s.chip.bit Reg.lctl 0 = true →
       1 ≤ fld v 8 5 → fld v 8 5 ≤ 16 → fld v 16 5 ≤ 16 →
       Does s (.localTransferGo m v .high) (ok { s.chip.plainWrite Reg.lxfer v with
         twb1 := { busy := true, out := (s.chip.plainWrite Reg.lxfer v).localBytes } }) ∧
       (∀ k, ∃ t, exec (.localTransferGo m v (.freedAt k)) s = .next t ∧ t.chip.twb1.busy = true ∧
         t.chip.bit Reg.lstat 5 = true) ∧
       ∃ t, exec (.localTransferGo m v .stuck) s = .next t ∧ t.chip.twb1.busy = false ∧ t.chip.bit Reg.lstat 3 = true) ∧
     (s.chip.up .ifc = true → s.chip.twb1.busy = true →
       (∀ bs pec, bs.length = s.chip.rf Reg.lxfer 16 5 → bs.length ≤ 16 →
         ∃ t, exec (.localTransferDone false bs pec) s = .next t ∧ t.chip.twb1.busy = false ∧
           t.chip.bit Reg.lstat 1 = true ∧ t.chip.bufBytes (Reg.lrbuf 0) bs.length = bs) ∧
       (∀ bs pec, ∃ t, exec (.localTransferDone true bs pec) s = .next t ∧ t.chip.twb1.busy = false ∧
         t.chip.bit Reg.lstat 2 = true) ∧
       Does s .localSclTimeout ({ s.chip with twb1.busy := false }.setBit Reg.lstat 4)))

/-- Update commands, each with the key: BEGIN on an idle channel that nothing guards opens it for its source, and is
refused with reason 15 on one that is open; ABORT ends an update with reason 14; ACTIVATE after the checks restarts
SUP on the new image; PLANSGO, where it is waited for and the power is within its limit, goes to the erase with the
shelf's holdover requested; CONFIRM ends a trial with event 121; RCVREQ is kept for the next boot; MIGDONE raises
event 123; TRIALARM starts the trial's time; and without the key nothing happens. The update's course: data is taken
while a header is awaited; a header that passes Table 18.3 opens the erase of its region with event 119, or waits for
PLANSGO; the erase leaves ones behind the programmed header; the end check refuses a body whose check is wrong with
reason 13 and finishes with a right one where no key is fused; the time limit ends it with reason 14, a trial's end
restarts SUP, and SOCMEAN grows stale. -/
def Obligations.updates : Prop :=
  (∀ (s : State) (m : Master) (v : Word), s.chip.Inv → MayWrite s m Reg.updcmd →
     (s.chip.upd.phase = 0 → s.chip.upd.owner = none → s.chip.updGuard true = none →
       Does s (.begin m 0x5E7A0001) (ok { s.chip with upd := { s.chip.upd with
         phase := 1, owner := some true, rx := [], got := 0, sigOk := false, timeAt := none } })) ∧
     (s.chip.upd.phase ≠ 0 → ∃ t, exec (.begin m 0x5E7A0001) s = .next t ∧ t.chip.upd.phase = 0 ∧
       t.chip.upd.reason = 15 ∧ t.chip.bit Reg.updstat 7 = true) ∧
     (s.chip.upd.phase ≠ 0 → s.chip.upd.owner ≠ some false → ∃ t, exec (.abort m 0x5E7A0003) s = .next t ∧
       t.chip.upd.phase = 0 ∧ t.chip.upd.reason = 14) ∧
     (s.chip.upd.phase = 6 → s.chip.upd.owner ≠ some false → s.chip.updGuard false = none → s.chip.pwr.cur = .standby →
       s.chip.planD = false → ∃ t, exec (.activate m 0x5E7A0002) s = .next t ∧ t.chip.up .sup = false ∧
         t.chip.pwr.boot = .warmRestart ∧ t.chip.mem = s.chip.mem) ∧
     (s.chip.upd.phase = 2 → (s.chip.reg Reg.updplim).toNat ≥ s.chip.gate.psh.natAbs →
       ∃ t, exec (.plansgo m 0x5E7A0004) s = .next t ∧ t.chip.upd.phase = 3 ∧ t.chip.upd.incompl = true ∧
         t.chip.upd.eraseAt = s.chip.now ∧ (s.chip.up .hub = true → t.chip.bit Reg.holdctl 0 = true)) ∧
     (s.chip.upd.trial = true → ∃ t, exec (.confirm m 0x5E7A0005) s = .next t ∧ t.chip.upd.trial = false ∧
       t.chip.upd.bTrial = false) ∧
     Does s (.rcvreq m 0x5E7A0006) (ok { s.chip with pwr.rcvReq := true }) ∧
     Does s (.migdone m 0x5E7A0007) (ok (s.chip.raise 123)) ∧
     Does s (.trialarm m 0x5E7A0008) (ok { s.chip with upd.trial := true, upd.trialAt := s.chip.now }) ∧
     (fld v 16 16 ≠ 0x5E7A → ∀ i ∈ [Instr.begin m v, .activate m v, .abort m v, .plansgo m v, .confirm m v, .rcvreq m v,
       .migdone m v, .trialarm m v], Does s i (ok s.chip))) ∧
  (∀ (s : State) (m : Master) (v : Word), s.chip.Inv → s.chip.up .sup = true →
     (MayWrite s m Reg.upddata → s.chip.upd.phase = 1 → s.chip.upd.owner = some true → s.chip.upd.rx.length < 128 →
       Does s (.upddataWrite m v) (ok { s.chip with
         upd := { s.chip.upd with rx := s.chip.upd.rx ++ wordBytes v, got := s.chip.upd.got + 4 } })) ∧
     (MayWrite s m Reg.upddata → s.chip.updBusy = true → Does s (.upddataWrite m v) (ok (s.chip.setBit Reg.updstat 15))) ∧
     (s.chip.upd.phase = 1 → 128 ≤ s.chip.upd.rx.length →
       (s.chip.headerRefusal (s.chip.upd.rx.take 128) = none → ∃ t, exec .headerTestDone s = .next t ∧
         t.chip.upd.phase = (if s.chip.planD = false ∧ field (s.chip.upd.rx.take 128) 0x0E 1 = 0 ∧
           s.chip.pwr.cur ≠ .recovery then 2 else 3) ∧
         t.chip.upd.len = field (s.chip.upd.rx.take 128) 0x10 4 ∧ t.chip.upd.eraseAt = s.chip.now) ∧
       (∀ r, s.chip.headerRefusal (s.chip.upd.rx.take 128) = some r → ∃ t, exec .headerTestDone s = .next t ∧
         t.chip.upd.phase = 0 ∧ t.chip.upd.reason = r)) ∧
     (s.chip.upd.phase = 3 → s.chip.upd.rx.length = 128 → s.chip.upd.got = 128 → s.chip.upd.base % 4096 = 0 →
       1 ≤ s.chip.upd.len → s.chip.upd.base + s.chip.upd.len + 0x80 ≤ 0xF0000 →
       ∃ t, exec .updateEraseDone s = .next t ∧ t.chip.upd.phase = 4 ∧
         (∀ j, j < 128 → t.chip.byte (s.chip.upd.base + j) = s.chip.upd.rx.getD j 0) ∧
         ∀ j, j < s.chip.upd.len → t.chip.byte (s.chip.upd.base + 0x80 + j) = 0xFF) ∧
     (s.chip.upd.phase = 5 →
       (field (s.chip.flashBytes s.chip.upd.base 128) 0x1C 4 ≠
           (check (s.chip.flashBytes (s.chip.upd.base + 0x80) s.chip.upd.len)).toNat →
         ∃ t, exec .endCheckDone s = .next t ∧ t.chip.upd.phase = 0 ∧ t.chip.upd.reason = 13) ∧
       (field (s.chip.flashBytes s.chip.upd.base 128) 0x1C 4 =
           (check (s.chip.flashBytes (s.chip.upd.base + 0x80) s.chip.upd.len)).toNat → s.chip.keyFused = false →
         ∃ t, exec .endCheckDone s = .next t ∧ t.chip.upd.phase = 6 ∧ t.chip.upd.incompl = false)) ∧
     (∀ t0, s.chip.upd.timeAt = some t0 → ∃ t, exec .updtimeExpiry s = .next t ∧ t.chip.upd.phase = 0 ∧
       t.chip.upd.reason = 14 ∧ t.chip.now = Nat.max s.chip.now (t0 + orOne (s.chip.rf Reg.updtime 0 8) * 100000000)) ∧
     (s.chip.upd.trial = true → ∃ t, exec .trialExpiry s = .next t ∧ t.chip.up .sup = false ∧
       t.chip.pwr.boot = .warmRestart) ∧
     (s.chip.upd.stale = false → Does s .socmeanStale
       { s.chip.elapseTo (s.chip.upd.socAt + 1000000000) with upd.stale := true }))

/-- Fuses: PROG with its key programs only in STANDBY or RECOVERY with the gate OPEN, VIN at least 3000 mV, the lock clear
and an address of 4 or above, and is refused with PROGREF otherwise; a bit goes from 0 to 1 only, PROGERR says that one
did not, and the shadow keeps what the last fuse load gave it. -/
def Obligations.fuse_programming : Prop :=
  ∀ (s : State) (m : Master) (v : Word), s.chip.Inv →
    (MayWrite s m Reg.fcmd → fld v 16 16 = 0xF05E → v.getLsbD 0 = true →
      ((s.chip.pwr.cur = .standby ∨ s.chip.pwr.cur = .recovery) → s.chip.gate.gst = .open_ → 3000 ≤ s.chip.pwr.vinMv →
        s.chip.fuses.locked = false → 4 ≤ s.chip.rf Reg.faddr 0 7 → s.chip.fuses.busy = none →
        Does s (.prog m v) (ok { s.chip with fuses := { s.chip.fuses with
          busy := some (s.chip.rf Reg.faddr 0 7, s.chip.reg Reg.fdata), busyAt := s.chip.now } })) ∧
      (s.chip.fuses.locked = true ∨ s.chip.gate.gst ≠ .open_ ∨ s.chip.pwr.vinMv < 3000 ∨ s.chip.rf Reg.faddr 0 7 < 4 ∨
        (s.chip.pwr.cur ≠ .standby ∧ s.chip.pwr.cur ≠ .recovery) →
        Does s (.prog m v) (ok (s.chip.setBit Reg.fstat 2)))) ∧
    (∀ a w un, s.chip.fuses.busy = some (a, w) → a < 128 → s.chip.fuses.array.length = 128 →
      ∃ t, exec (.fuseProgramDone un) s = .next t ∧ t.chip.fuses.busy = none ∧ t.chip.fuses.shadow = s.chip.fuses.shadow ∧
        (∀ k, k < 32 → (t.chip.fuses.array.getD a 0).getLsbD k =
          ((s.chip.fuses.array.getD a 0).getLsbD k || (w.getLsbD k && !un.getLsbD k))) ∧
        (∀ b, b ≠ a → t.chip.fuses.array.getD b 0 = s.chip.fuses.array.getD b 0) ∧
        (un = 0 → t.chip.bit Reg.fstat 1 = true))

/-! The words of ZIS and of step memory (chapter 13). -/

/-- Every well-formed ZIS instruction, with every operand at every value its encoding admits, is decoded from its own
word by the engine it is for. -/
def Obligations.zis_decode_of_encode : Prop :=
  ∀ (i : Instr) (e : Engine) (w : Word), i.wf = true → zisEncode i = some (e, w) → zisDecode e w = some i

/-- The words that chapter 13 writes out: ORI and VMULDIV of its loop program, and three steps of Table 12.7. -/
def Obligations.written_out_words_decode : Prop :=
  zisDecode (.tile 0) 0x10415800 = some (.ori (.tile 0) .always 1 0 0x1580) ∧
  zisDecode (.tile 0) 0xA914C324 = some (.vmuldiv 0 true 2 1 4 3) ∧
  seqDecode 0xD010000C = some (.check false 10 0x000C 16) ∧ seqDecode 0x10000410 = some (.sync 1 16) ∧
  seqDecode 0x04010001 = some (.en true 1)
end

