-- ==== Sys2Proof/Laws/State.lean ====
section
/-! SUPPORT. What each named update of the part leaves alone: one lemma per field per update. -/

namespace Sys2Proof.Machine

variable (c : Chip)

/-! `Chip.setReg` changes regs only. -/

@[simp] theorem Chip.setReg_now (a : Nat) (v : Word) : (c.setReg a v).now = c.now := rfl
@[simp] theorem Chip.setReg_pwr (a : Nat) (v : Word) : (c.setReg a v).pwr = c.pwr := rfl
@[simp] theorem Chip.setReg_shelfReq (a : Nat) (v : Word) : (c.setReg a v).shelfReq = c.shelfReq := rfl
@[simp] theorem Chip.setReg_snapReq (a : Nat) (v : Word) : (c.setReg a v).snapReq = c.snapReq := rfl
@[simp] theorem Chip.setReg_tg (a : Nat) (v : Word) : (c.setReg a v).tg = c.tg := rfl
@[simp] theorem Chip.setReg_shadows (a : Nat) (v : Word) : (c.setReg a v).shadows = c.shadows := rfl
@[simp] theorem Chip.setReg_mem (a : Nat) (v : Word) : (c.setReg a v).mem = c.mem := rfl
@[simp] theorem Chip.setReg_badPar (a : Nat) (v : Word) : (c.setReg a v).badPar = c.badPar := rfl
@[simp] theorem Chip.setReg_ecc (a : Nat) (v : Word) : (c.setReg a v).ecc = c.ecc := rfl
@[simp] theorem Chip.setReg_snap (a : Nat) (v : Word) : (c.setReg a v).snap = c.snap := rfl
@[simp] theorem Chip.setReg_fuses (a : Nat) (v : Word) : (c.setReg a v).fuses = c.fuses := rfl
@[simp] theorem Chip.setReg_crc (a : Nat) (v : Word) : (c.setReg a v).crc = c.crc := rfl
@[simp] theorem Chip.setReg_ev (a : Nat) (v : Word) : (c.setReg a v).ev = c.ev := rfl
@[simp] theorem Chip.setReg_strands (a : Nat) (v : Word) : (c.setReg a v).strands = c.strands := rfl
@[simp] theorem Chip.setReg_issue (a : Nat) (v : Word) : (c.setReg a v).issue = c.issue := rfl
@[simp] theorem Chip.setReg_pmon (a : Nat) (v : Word) : (c.setReg a v).pmon = c.pmon := rfl
@[simp] theorem Chip.setReg_inputs (a : Nat) (v : Word) : (c.setReg a v).inputs = c.inputs := rfl
@[simp] theorem Chip.setReg_pins (a : Nat) (v : Word) : (c.setReg a v).pins = c.pins := rfl
@[simp] theorem Chip.setReg_tiles (a : Nat) (v : Word) : (c.setReg a v).tiles = c.tiles := rfl
@[simp] theorem Chip.setReg_fo (a : Nat) (v : Word) : (c.setReg a v).fo = c.fo := rfl
@[simp] theorem Chip.setReg_hub (a : Nat) (v : Word) : (c.setReg a v).hub = c.hub := rfl
@[simp] theorem Chip.setReg_loop (a : Nat) (v : Word) : (c.setReg a v).loop = c.loop := rfl
@[simp] theorem Chip.setReg_alloc (a : Nat) (v : Word) : (c.setReg a v).alloc = c.alloc := rfl
@[simp] theorem Chip.setReg_allocPend (a : Nat) (v : Word) : (c.setReg a v).allocPend = c.allocPend := rfl
@[simp] theorem Chip.setReg_est (a : Nat) (v : Word) : (c.setReg a v).est = c.est := rfl
@[simp] theorem Chip.setReg_therm (a : Nat) (v : Word) : (c.setReg a v).therm = c.therm := rfl
@[simp] theorem Chip.setReg_age (a : Nat) (v : Word) : (c.setReg a v).age = c.age := rfl
@[simp] theorem Chip.setReg_gate (a : Nat) (v : Word) : (c.setReg a v).gate = c.gate := rfl
@[simp] theorem Chip.setReg_seq (a : Nat) (v : Word) : (c.setReg a v).seq = c.seq := rfl
@[simp] theorem Chip.setReg_adc (a : Nat) (v : Word) : (c.setReg a v).adc = c.adc := rfl
@[simp] theorem Chip.setReg_spl (a : Nat) (v : Word) : (c.setReg a v).spl = c.spl := rfl
@[simp] theorem Chip.setReg_twb0 (a : Nat) (v : Word) : (c.setReg a v).twb0 = c.twb0 := rfl
@[simp] theorem Chip.setReg_twb1 (a : Nat) (v : Word) : (c.setReg a v).twb1 = c.twb1 := rfl
@[simp] theorem Chip.setReg_memc (a : Nat) (v : Word) : (c.setReg a v).memc = c.memc := rfl
@[simp] theorem Chip.setReg_recd (a : Nat) (v : Word) : (c.setReg a v).recd = c.recd := rfl
@[simp] theorem Chip.setReg_upd (a : Nat) (v : Word) : (c.setReg a v).upd = c.upd := rfl
@[simp] theorem Chip.setReg_freeIx (a : Nat) (v : Word) : (c.setReg a v).freeIx = c.freeIx := rfl
@[simp] theorem Chip.setReg_raised (a : Nat) (v : Word) : (c.setReg a v).raised = c.raised := rfl
@[simp] theorem Chip.setReg_answer (a : Nat) (v : Word) : (c.setReg a v).answer = c.answer := rfl

/-! `Chip.putFld` changes regs only. -/

@[simp] theorem Chip.putFld_now (a lo len v : Nat) : (c.putFld a lo len v).now = c.now := rfl
@[simp] theorem Chip.putFld_pwr (a lo len v : Nat) : (c.putFld a lo len v).pwr = c.pwr := rfl
@[simp] theorem Chip.putFld_shelfReq (a lo len v : Nat) : (c.putFld a lo len v).shelfReq = c.shelfReq := rfl
@[simp] theorem Chip.putFld_snapReq (a lo len v : Nat) : (c.putFld a lo len v).snapReq = c.snapReq := rfl
@[simp] theorem Chip.putFld_tg (a lo len v : Nat) : (c.putFld a lo len v).tg = c.tg := rfl
@[simp] theorem Chip.putFld_shadows (a lo len v : Nat) : (c.putFld a lo len v).shadows = c.shadows := rfl
@[simp] theorem Chip.putFld_mem (a lo len v : Nat) : (c.putFld a lo len v).mem = c.mem := rfl
@[simp] theorem Chip.putFld_badPar (a lo len v : Nat) : (c.putFld a lo len v).badPar = c.badPar := rfl
@[simp] theorem Chip.putFld_ecc (a lo len v : Nat) : (c.putFld a lo len v).ecc = c.ecc := rfl
@[simp] theorem Chip.putFld_snap (a lo len v : Nat) : (c.putFld a lo len v).snap = c.snap := rfl
@[simp] theorem Chip.putFld_fuses (a lo len v : Nat) : (c.putFld a lo len v).fuses = c.fuses := rfl
@[simp] theorem Chip.putFld_crc (a lo len v : Nat) : (c.putFld a lo len v).crc = c.crc := rfl
@[simp] theorem Chip.putFld_ev (a lo len v : Nat) : (c.putFld a lo len v).ev = c.ev := rfl
@[simp] theorem Chip.putFld_strands (a lo len v : Nat) : (c.putFld a lo len v).strands = c.strands := rfl
@[simp] theorem Chip.putFld_issue (a lo len v : Nat) : (c.putFld a lo len v).issue = c.issue := rfl
@[simp] theorem Chip.putFld_pmon (a lo len v : Nat) : (c.putFld a lo len v).pmon = c.pmon := rfl
@[simp] theorem Chip.putFld_inputs (a lo len v : Nat) : (c.putFld a lo len v).inputs = c.inputs := rfl
@[simp] theorem Chip.putFld_pins (a lo len v : Nat) : (c.putFld a lo len v).pins = c.pins := rfl
@[simp] theorem Chip.putFld_tiles (a lo len v : Nat) : (c.putFld a lo len v).tiles = c.tiles := rfl
@[simp] theorem Chip.putFld_fo (a lo len v : Nat) : (c.putFld a lo len v).fo = c.fo := rfl
@[simp] theorem Chip.putFld_hub (a lo len v : Nat) : (c.putFld a lo len v).hub = c.hub := rfl
@[simp] theorem Chip.putFld_loop (a lo len v : Nat) : (c.putFld a lo len v).loop = c.loop := rfl
@[simp] theorem Chip.putFld_alloc (a lo len v : Nat) : (c.putFld a lo len v).alloc = c.alloc := rfl
@[simp] theorem Chip.putFld_allocPend (a lo len v : Nat) : (c.putFld a lo len v).allocPend = c.allocPend := rfl
@[simp] theorem Chip.putFld_est (a lo len v : Nat) : (c.putFld a lo len v).est = c.est := rfl
@[simp] theorem Chip.putFld_therm (a lo len v : Nat) : (c.putFld a lo len v).therm = c.therm := rfl
@[simp] theorem Chip.putFld_age (a lo len v : Nat) : (c.putFld a lo len v).age = c.age := rfl
@[simp] theorem Chip.putFld_gate (a lo len v : Nat) : (c.putFld a lo len v).gate = c.gate := rfl
@[simp] theorem Chip.putFld_seq (a lo len v : Nat) : (c.putFld a lo len v).seq = c.seq := rfl
@[simp] theorem Chip.putFld_adc (a lo len v : Nat) : (c.putFld a lo len v).adc = c.adc := rfl
@[simp] theorem Chip.putFld_spl (a lo len v : Nat) : (c.putFld a lo len v).spl = c.spl := rfl
@[simp] theorem Chip.putFld_twb0 (a lo len v : Nat) : (c.putFld a lo len v).twb0 = c.twb0 := rfl
@[simp] theorem Chip.putFld_twb1 (a lo len v : Nat) : (c.putFld a lo len v).twb1 = c.twb1 := rfl
@[simp] theorem Chip.putFld_memc (a lo len v : Nat) : (c.putFld a lo len v).memc = c.memc := rfl
@[simp] theorem Chip.putFld_recd (a lo len v : Nat) : (c.putFld a lo len v).recd = c.recd := rfl
@[simp] theorem Chip.putFld_upd (a lo len v : Nat) : (c.putFld a lo len v).upd = c.upd := rfl
@[simp] theorem Chip.putFld_freeIx (a lo len v : Nat) : (c.putFld a lo len v).freeIx = c.freeIx := rfl
@[simp] theorem Chip.putFld_raised (a lo len v : Nat) : (c.putFld a lo len v).raised = c.raised := rfl
@[simp] theorem Chip.putFld_answer (a lo len v : Nat) : (c.putFld a lo len v).answer = c.answer := rfl

/-! `Chip.setBit` changes regs only. -/

@[simp] theorem Chip.setBit_now (a i : Nat) : (c.setBit a i).now = c.now := rfl
@[simp] theorem Chip.setBit_pwr (a i : Nat) : (c.setBit a i).pwr = c.pwr := rfl
@[simp] theorem Chip.setBit_shelfReq (a i : Nat) : (c.setBit a i).shelfReq = c.shelfReq := rfl
@[simp] theorem Chip.setBit_snapReq (a i : Nat) : (c.setBit a i).snapReq = c.snapReq := rfl
@[simp] theorem Chip.setBit_tg (a i : Nat) : (c.setBit a i).tg = c.tg := rfl
@[simp] theorem Chip.setBit_shadows (a i : Nat) : (c.setBit a i).shadows = c.shadows := rfl
@[simp] theorem Chip.setBit_mem (a i : Nat) : (c.setBit a i).mem = c.mem := rfl
@[simp] theorem Chip.setBit_badPar (a i : Nat) : (c.setBit a i).badPar = c.badPar := rfl
@[simp] theorem Chip.setBit_ecc (a i : Nat) : (c.setBit a i).ecc = c.ecc := rfl
@[simp] theorem Chip.setBit_snap (a i : Nat) : (c.setBit a i).snap = c.snap := rfl
@[simp] theorem Chip.setBit_fuses (a i : Nat) : (c.setBit a i).fuses = c.fuses := rfl
@[simp] theorem Chip.setBit_crc (a i : Nat) : (c.setBit a i).crc = c.crc := rfl
@[simp] theorem Chip.setBit_ev (a i : Nat) : (c.setBit a i).ev = c.ev := rfl
@[simp] theorem Chip.setBit_strands (a i : Nat) : (c.setBit a i).strands = c.strands := rfl
@[simp] theorem Chip.setBit_issue (a i : Nat) : (c.setBit a i).issue = c.issue := rfl
@[simp] theorem Chip.setBit_pmon (a i : Nat) : (c.setBit a i).pmon = c.pmon := rfl
@[simp] theorem Chip.setBit_inputs (a i : Nat) : (c.setBit a i).inputs = c.inputs := rfl
@[simp] theorem Chip.setBit_pins (a i : Nat) : (c.setBit a i).pins = c.pins := rfl
@[simp] theorem Chip.setBit_tiles (a i : Nat) : (c.setBit a i).tiles = c.tiles := rfl
@[simp] theorem Chip.setBit_fo (a i : Nat) : (c.setBit a i).fo = c.fo := rfl
@[simp] theorem Chip.setBit_hub (a i : Nat) : (c.setBit a i).hub = c.hub := rfl
@[simp] theorem Chip.setBit_loop (a i : Nat) : (c.setBit a i).loop = c.loop := rfl
@[simp] theorem Chip.setBit_alloc (a i : Nat) : (c.setBit a i).alloc = c.alloc := rfl
@[simp] theorem Chip.setBit_allocPend (a i : Nat) : (c.setBit a i).allocPend = c.allocPend := rfl
@[simp] theorem Chip.setBit_est (a i : Nat) : (c.setBit a i).est = c.est := rfl
@[simp] theorem Chip.setBit_therm (a i : Nat) : (c.setBit a i).therm = c.therm := rfl
@[simp] theorem Chip.setBit_age (a i : Nat) : (c.setBit a i).age = c.age := rfl
@[simp] theorem Chip.setBit_gate (a i : Nat) : (c.setBit a i).gate = c.gate := rfl
@[simp] theorem Chip.setBit_seq (a i : Nat) : (c.setBit a i).seq = c.seq := rfl
@[simp] theorem Chip.setBit_adc (a i : Nat) : (c.setBit a i).adc = c.adc := rfl
@[simp] theorem Chip.setBit_spl (a i : Nat) : (c.setBit a i).spl = c.spl := rfl
@[simp] theorem Chip.setBit_twb0 (a i : Nat) : (c.setBit a i).twb0 = c.twb0 := rfl
@[simp] theorem Chip.setBit_twb1 (a i : Nat) : (c.setBit a i).twb1 = c.twb1 := rfl
@[simp] theorem Chip.setBit_memc (a i : Nat) : (c.setBit a i).memc = c.memc := rfl
@[simp] theorem Chip.setBit_recd (a i : Nat) : (c.setBit a i).recd = c.recd := rfl
@[simp] theorem Chip.setBit_upd (a i : Nat) : (c.setBit a i).upd = c.upd := rfl
@[simp] theorem Chip.setBit_freeIx (a i : Nat) : (c.setBit a i).freeIx = c.freeIx := rfl
@[simp] theorem Chip.setBit_raised (a i : Nat) : (c.setBit a i).raised = c.raised := rfl
@[simp] theorem Chip.setBit_answer (a i : Nat) : (c.setBit a i).answer = c.answer := rfl

/-! `Chip.clrBit` changes regs only. -/

@[simp] theorem Chip.clrBit_now (a i : Nat) : (c.clrBit a i).now = c.now := rfl
@[simp] theorem Chip.clrBit_pwr (a i : Nat) : (c.clrBit a i).pwr = c.pwr := rfl
@[simp] theorem Chip.clrBit_shelfReq (a i : Nat) : (c.clrBit a i).shelfReq = c.shelfReq := rfl
@[simp] theorem Chip.clrBit_snapReq (a i : Nat) : (c.clrBit a i).snapReq = c.snapReq := rfl
@[simp] theorem Chip.clrBit_tg (a i : Nat) : (c.clrBit a i).tg = c.tg := rfl
@[simp] theorem Chip.clrBit_shadows (a i : Nat) : (c.clrBit a i).shadows = c.shadows := rfl
@[simp] theorem Chip.clrBit_mem (a i : Nat) : (c.clrBit a i).mem = c.mem := rfl
@[simp] theorem Chip.clrBit_badPar (a i : Nat) : (c.clrBit a i).badPar = c.badPar := rfl
@[simp] theorem Chip.clrBit_ecc (a i : Nat) : (c.clrBit a i).ecc = c.ecc := rfl
@[simp] theorem Chip.clrBit_snap (a i : Nat) : (c.clrBit a i).snap = c.snap := rfl
@[simp] theorem Chip.clrBit_fuses (a i : Nat) : (c.clrBit a i).fuses = c.fuses := rfl
@[simp] theorem Chip.clrBit_crc (a i : Nat) : (c.clrBit a i).crc = c.crc := rfl
@[simp] theorem Chip.clrBit_ev (a i : Nat) : (c.clrBit a i).ev = c.ev := rfl
@[simp] theorem Chip.clrBit_strands (a i : Nat) : (c.clrBit a i).strands = c.strands := rfl
@[simp] theorem Chip.clrBit_issue (a i : Nat) : (c.clrBit a i).issue = c.issue := rfl
@[simp] theorem Chip.clrBit_pmon (a i : Nat) : (c.clrBit a i).pmon = c.pmon := rfl
@[simp] theorem Chip.clrBit_inputs (a i : Nat) : (c.clrBit a i).inputs = c.inputs := rfl
@[simp] theorem Chip.clrBit_pins (a i : Nat) : (c.clrBit a i).pins = c.pins := rfl
@[simp] theorem Chip.clrBit_tiles (a i : Nat) : (c.clrBit a i).tiles = c.tiles := rfl
@[simp] theorem Chip.clrBit_fo (a i : Nat) : (c.clrBit a i).fo = c.fo := rfl
@[simp] theorem Chip.clrBit_hub (a i : Nat) : (c.clrBit a i).hub = c.hub := rfl
@[simp] theorem Chip.clrBit_loop (a i : Nat) : (c.clrBit a i).loop = c.loop := rfl
@[simp] theorem Chip.clrBit_alloc (a i : Nat) : (c.clrBit a i).alloc = c.alloc := rfl
@[simp] theorem Chip.clrBit_allocPend (a i : Nat) : (c.clrBit a i).allocPend = c.allocPend := rfl
@[simp] theorem Chip.clrBit_est (a i : Nat) : (c.clrBit a i).est = c.est := rfl
@[simp] theorem Chip.clrBit_therm (a i : Nat) : (c.clrBit a i).therm = c.therm := rfl
@[simp] theorem Chip.clrBit_age (a i : Nat) : (c.clrBit a i).age = c.age := rfl
@[simp] theorem Chip.clrBit_gate (a i : Nat) : (c.clrBit a i).gate = c.gate := rfl
@[simp] theorem Chip.clrBit_seq (a i : Nat) : (c.clrBit a i).seq = c.seq := rfl
@[simp] theorem Chip.clrBit_adc (a i : Nat) : (c.clrBit a i).adc = c.adc := rfl
@[simp] theorem Chip.clrBit_spl (a i : Nat) : (c.clrBit a i).spl = c.spl := rfl
@[simp] theorem Chip.clrBit_twb0 (a i : Nat) : (c.clrBit a i).twb0 = c.twb0 := rfl
@[simp] theorem Chip.clrBit_twb1 (a i : Nat) : (c.clrBit a i).twb1 = c.twb1 := rfl
@[simp] theorem Chip.clrBit_memc (a i : Nat) : (c.clrBit a i).memc = c.memc := rfl
@[simp] theorem Chip.clrBit_recd (a i : Nat) : (c.clrBit a i).recd = c.recd := rfl
@[simp] theorem Chip.clrBit_upd (a i : Nat) : (c.clrBit a i).upd = c.upd := rfl
@[simp] theorem Chip.clrBit_freeIx (a i : Nat) : (c.clrBit a i).freeIx = c.freeIx := rfl
@[simp] theorem Chip.clrBit_raised (a i : Nat) : (c.clrBit a i).raised = c.raised := rfl
@[simp] theorem Chip.clrBit_answer (a i : Nat) : (c.clrBit a i).answer = c.answer := rfl

/-! `Chip.count` changes regs only. -/

@[simp] theorem Chip.count_now (a lo len k : Nat) : (c.count a lo len k).now = c.now := rfl
@[simp] theorem Chip.count_pwr (a lo len k : Nat) : (c.count a lo len k).pwr = c.pwr := rfl
@[simp] theorem Chip.count_shelfReq (a lo len k : Nat) : (c.count a lo len k).shelfReq = c.shelfReq := rfl
@[simp] theorem Chip.count_snapReq (a lo len k : Nat) : (c.count a lo len k).snapReq = c.snapReq := rfl
@[simp] theorem Chip.count_tg (a lo len k : Nat) : (c.count a lo len k).tg = c.tg := rfl
@[simp] theorem Chip.count_shadows (a lo len k : Nat) : (c.count a lo len k).shadows = c.shadows := rfl
@[simp] theorem Chip.count_mem (a lo len k : Nat) : (c.count a lo len k).mem = c.mem := rfl
@[simp] theorem Chip.count_badPar (a lo len k : Nat) : (c.count a lo len k).badPar = c.badPar := rfl
@[simp] theorem Chip.count_ecc (a lo len k : Nat) : (c.count a lo len k).ecc = c.ecc := rfl
@[simp] theorem Chip.count_snap (a lo len k : Nat) : (c.count a lo len k).snap = c.snap := rfl
@[simp] theorem Chip.count_fuses (a lo len k : Nat) : (c.count a lo len k).fuses = c.fuses := rfl
@[simp] theorem Chip.count_crc (a lo len k : Nat) : (c.count a lo len k).crc = c.crc := rfl
@[simp] theorem Chip.count_ev (a lo len k : Nat) : (c.count a lo len k).ev = c.ev := rfl
@[simp] theorem Chip.count_strands (a lo len k : Nat) : (c.count a lo len k).strands = c.strands := rfl
@[simp] theorem Chip.count_issue (a lo len k : Nat) : (c.count a lo len k).issue = c.issue := rfl
@[simp] theorem Chip.count_pmon (a lo len k : Nat) : (c.count a lo len k).pmon = c.pmon := rfl
@[simp] theorem Chip.count_inputs (a lo len k : Nat) : (c.count a lo len k).inputs = c.inputs := rfl
@[simp] theorem Chip.count_pins (a lo len k : Nat) : (c.count a lo len k).pins = c.pins := rfl
@[simp] theorem Chip.count_tiles (a lo len k : Nat) : (c.count a lo len k).tiles = c.tiles := rfl
@[simp] theorem Chip.count_fo (a lo len k : Nat) : (c.count a lo len k).fo = c.fo := rfl
@[simp] theorem Chip.count_hub (a lo len k : Nat) : (c.count a lo len k).hub = c.hub := rfl
@[simp] theorem Chip.count_loop (a lo len k : Nat) : (c.count a lo len k).loop = c.loop := rfl
@[simp] theorem Chip.count_alloc (a lo len k : Nat) : (c.count a lo len k).alloc = c.alloc := rfl
@[simp] theorem Chip.count_allocPend (a lo len k : Nat) : (c.count a lo len k).allocPend = c.allocPend := rfl
@[simp] theorem Chip.count_est (a lo len k : Nat) : (c.count a lo len k).est = c.est := rfl
@[simp] theorem Chip.count_therm (a lo len k : Nat) : (c.count a lo len k).therm = c.therm := rfl
@[simp] theorem Chip.count_age (a lo len k : Nat) : (c.count a lo len k).age = c.age := rfl
@[simp] theorem Chip.count_gate (a lo len k : Nat) : (c.count a lo len k).gate = c.gate := rfl
@[simp] theorem Chip.count_seq (a lo len k : Nat) : (c.count a lo len k).seq = c.seq := rfl
@[simp] theorem Chip.count_adc (a lo len k : Nat) : (c.count a lo len k).adc = c.adc := rfl
@[simp] theorem Chip.count_spl (a lo len k : Nat) : (c.count a lo len k).spl = c.spl := rfl
@[simp] theorem Chip.count_twb0 (a lo len k : Nat) : (c.count a lo len k).twb0 = c.twb0 := rfl
@[simp] theorem Chip.count_twb1 (a lo len k : Nat) : (c.count a lo len k).twb1 = c.twb1 := rfl
@[simp] theorem Chip.count_memc (a lo len k : Nat) : (c.count a lo len k).memc = c.memc := rfl
@[simp] theorem Chip.count_recd (a lo len k : Nat) : (c.count a lo len k).recd = c.recd := rfl
@[simp] theorem Chip.count_upd (a lo len k : Nat) : (c.count a lo len k).upd = c.upd := rfl
@[simp] theorem Chip.count_freeIx (a lo len k : Nat) : (c.count a lo len k).freeIx = c.freeIx := rfl
@[simp] theorem Chip.count_raised (a lo len k : Nat) : (c.count a lo len k).raised = c.raised := rfl
@[simp] theorem Chip.count_answer (a lo len k : Nat) : (c.count a lo len k).answer = c.answer := rfl

/-! `Chip.setByte` changes mem only. -/

@[simp] theorem Chip.setByte_now (a : Nat) (b : Byte) : (c.setByte a b).now = c.now := rfl
@[simp] theorem Chip.setByte_pwr (a : Nat) (b : Byte) : (c.setByte a b).pwr = c.pwr := rfl
@[simp] theorem Chip.setByte_shelfReq (a : Nat) (b : Byte) : (c.setByte a b).shelfReq = c.shelfReq := rfl
@[simp] theorem Chip.setByte_snapReq (a : Nat) (b : Byte) : (c.setByte a b).snapReq = c.snapReq := rfl
@[simp] theorem Chip.setByte_tg (a : Nat) (b : Byte) : (c.setByte a b).tg = c.tg := rfl
@[simp] theorem Chip.setByte_regs (a : Nat) (b : Byte) : (c.setByte a b).regs = c.regs := rfl
@[simp] theorem Chip.setByte_shadows (a : Nat) (b : Byte) : (c.setByte a b).shadows = c.shadows := rfl
@[simp] theorem Chip.setByte_badPar (a : Nat) (b : Byte) : (c.setByte a b).badPar = c.badPar := rfl
@[simp] theorem Chip.setByte_ecc (a : Nat) (b : Byte) : (c.setByte a b).ecc = c.ecc := rfl
@[simp] theorem Chip.setByte_snap (a : Nat) (b : Byte) : (c.setByte a b).snap = c.snap := rfl
@[simp] theorem Chip.setByte_fuses (a : Nat) (b : Byte) : (c.setByte a b).fuses = c.fuses := rfl
@[simp] theorem Chip.setByte_crc (a : Nat) (b : Byte) : (c.setByte a b).crc = c.crc := rfl
@[simp] theorem Chip.setByte_ev (a : Nat) (b : Byte) : (c.setByte a b).ev = c.ev := rfl
@[simp] theorem Chip.setByte_strands (a : Nat) (b : Byte) : (c.setByte a b).strands = c.strands := rfl
@[simp] theorem Chip.setByte_issue (a : Nat) (b : Byte) : (c.setByte a b).issue = c.issue := rfl
@[simp] theorem Chip.setByte_pmon (a : Nat) (b : Byte) : (c.setByte a b).pmon = c.pmon := rfl
@[simp] theorem Chip.setByte_inputs (a : Nat) (b : Byte) : (c.setByte a b).inputs = c.inputs := rfl
@[simp] theorem Chip.setByte_pins (a : Nat) (b : Byte) : (c.setByte a b).pins = c.pins := rfl
@[simp] theorem Chip.setByte_tiles (a : Nat) (b : Byte) : (c.setByte a b).tiles = c.tiles := rfl
@[simp] theorem Chip.setByte_fo (a : Nat) (b : Byte) : (c.setByte a b).fo = c.fo := rfl
@[simp] theorem Chip.setByte_hub (a : Nat) (b : Byte) : (c.setByte a b).hub = c.hub := rfl
@[simp] theorem Chip.setByte_loop (a : Nat) (b : Byte) : (c.setByte a b).loop = c.loop := rfl
@[simp] theorem Chip.setByte_alloc (a : Nat) (b : Byte) : (c.setByte a b).alloc = c.alloc := rfl
@[simp] theorem Chip.setByte_allocPend (a : Nat) (b : Byte) : (c.setByte a b).allocPend = c.allocPend := rfl
@[simp] theorem Chip.setByte_est (a : Nat) (b : Byte) : (c.setByte a b).est = c.est := rfl
@[simp] theorem Chip.setByte_therm (a : Nat) (b : Byte) : (c.setByte a b).therm = c.therm := rfl
@[simp] theorem Chip.setByte_age (a : Nat) (b : Byte) : (c.setByte a b).age = c.age := rfl
@[simp] theorem Chip.setByte_gate (a : Nat) (b : Byte) : (c.setByte a b).gate = c.gate := rfl
@[simp] theorem Chip.setByte_seq (a : Nat) (b : Byte) : (c.setByte a b).seq = c.seq := rfl
@[simp] theorem Chip.setByte_adc (a : Nat) (b : Byte) : (c.setByte a b).adc = c.adc := rfl
@[simp] theorem Chip.setByte_spl (a : Nat) (b : Byte) : (c.setByte a b).spl = c.spl := rfl
@[simp] theorem Chip.setByte_twb0 (a : Nat) (b : Byte) : (c.setByte a b).twb0 = c.twb0 := rfl
@[simp] theorem Chip.setByte_twb1 (a : Nat) (b : Byte) : (c.setByte a b).twb1 = c.twb1 := rfl
@[simp] theorem Chip.setByte_memc (a : Nat) (b : Byte) : (c.setByte a b).memc = c.memc := rfl
@[simp] theorem Chip.setByte_recd (a : Nat) (b : Byte) : (c.setByte a b).recd = c.recd := rfl
@[simp] theorem Chip.setByte_upd (a : Nat) (b : Byte) : (c.setByte a b).upd = c.upd := rfl
@[simp] theorem Chip.setByte_freeIx (a : Nat) (b : Byte) : (c.setByte a b).freeIx = c.freeIx := rfl
@[simp] theorem Chip.setByte_raised (a : Nat) (b : Byte) : (c.setByte a b).raised = c.raised := rfl
@[simp] theorem Chip.setByte_answer (a : Nat) (b : Byte) : (c.setByte a b).answer = c.answer := rfl

/-! `Chip.blank` changes mem, badPar, ecc only. -/

@[simp] theorem Chip.blank_now (lo hi : Nat) : (c.blank lo hi).now = c.now := rfl
@[simp] theorem Chip.blank_pwr (lo hi : Nat) : (c.blank lo hi).pwr = c.pwr := rfl
@[simp] theorem Chip.blank_shelfReq (lo hi : Nat) : (c.blank lo hi).shelfReq = c.shelfReq := rfl
@[simp] theorem Chip.blank_snapReq (lo hi : Nat) : (c.blank lo hi).snapReq = c.snapReq := rfl
@[simp] theorem Chip.blank_tg (lo hi : Nat) : (c.blank lo hi).tg = c.tg := rfl
@[simp] theorem Chip.blank_regs (lo hi : Nat) : (c.blank lo hi).regs = c.regs := rfl
@[simp] theorem Chip.blank_shadows (lo hi : Nat) : (c.blank lo hi).shadows = c.shadows := rfl
@[simp] theorem Chip.blank_snap (lo hi : Nat) : (c.blank lo hi).snap = c.snap := rfl
@[simp] theorem Chip.blank_fuses (lo hi : Nat) : (c.blank lo hi).fuses = c.fuses := rfl
@[simp] theorem Chip.blank_crc (lo hi : Nat) : (c.blank lo hi).crc = c.crc := rfl
@[simp] theorem Chip.blank_ev (lo hi : Nat) : (c.blank lo hi).ev = c.ev := rfl
@[simp] theorem Chip.blank_strands (lo hi : Nat) : (c.blank lo hi).strands = c.strands := rfl
@[simp] theorem Chip.blank_issue (lo hi : Nat) : (c.blank lo hi).issue = c.issue := rfl
@[simp] theorem Chip.blank_pmon (lo hi : Nat) : (c.blank lo hi).pmon = c.pmon := rfl
@[simp] theorem Chip.blank_inputs (lo hi : Nat) : (c.blank lo hi).inputs = c.inputs := rfl
@[simp] theorem Chip.blank_pins (lo hi : Nat) : (c.blank lo hi).pins = c.pins := rfl
@[simp] theorem Chip.blank_tiles (lo hi : Nat) : (c.blank lo hi).tiles = c.tiles := rfl
@[simp] theorem Chip.blank_fo (lo hi : Nat) : (c.blank lo hi).fo = c.fo := rfl
@[simp] theorem Chip.blank_hub (lo hi : Nat) : (c.blank lo hi).hub = c.hub := rfl
@[simp] theorem Chip.blank_loop (lo hi : Nat) : (c.blank lo hi).loop = c.loop := rfl
@[simp] theorem Chip.blank_alloc (lo hi : Nat) : (c.blank lo hi).alloc = c.alloc := rfl
@[simp] theorem Chip.blank_allocPend (lo hi : Nat) : (c.blank lo hi).allocPend = c.allocPend := rfl
@[simp] theorem Chip.blank_est (lo hi : Nat) : (c.blank lo hi).est = c.est := rfl
@[simp] theorem Chip.blank_therm (lo hi : Nat) : (c.blank lo hi).therm = c.therm := rfl
@[simp] theorem Chip.blank_age (lo hi : Nat) : (c.blank lo hi).age = c.age := rfl
@[simp] theorem Chip.blank_gate (lo hi : Nat) : (c.blank lo hi).gate = c.gate := rfl
@[simp] theorem Chip.blank_seq (lo hi : Nat) : (c.blank lo hi).seq = c.seq := rfl
@[simp] theorem Chip.blank_adc (lo hi : Nat) : (c.blank lo hi).adc = c.adc := rfl
@[simp] theorem Chip.blank_spl (lo hi : Nat) : (c.blank lo hi).spl = c.spl := rfl
@[simp] theorem Chip.blank_twb0 (lo hi : Nat) : (c.blank lo hi).twb0 = c.twb0 := rfl
@[simp] theorem Chip.blank_twb1 (lo hi : Nat) : (c.blank lo hi).twb1 = c.twb1 := rfl
@[simp] theorem Chip.blank_memc (lo hi : Nat) : (c.blank lo hi).memc = c.memc := rfl
@[simp] theorem Chip.blank_recd (lo hi : Nat) : (c.blank lo hi).recd = c.recd := rfl
@[simp] theorem Chip.blank_upd (lo hi : Nat) : (c.blank lo hi).upd = c.upd := rfl
@[simp] theorem Chip.blank_freeIx (lo hi : Nat) : (c.blank lo hi).freeIx = c.freeIx := rfl
@[simp] theorem Chip.blank_raised (lo hi : Nat) : (c.blank lo hi).raised = c.raised := rfl
@[simp] theorem Chip.blank_answer (lo hi : Nat) : (c.blank lo hi).answer = c.answer := rfl

/-! `Chip.latch` changes shadows only. -/

@[simp] theorem Chip.latch_now (m : Master) (hi : Nat) (v : Word) : (c.latch m hi v).now = c.now := rfl
@[simp] theorem Chip.latch_pwr (m : Master) (hi : Nat) (v : Word) : (c.latch m hi v).pwr = c.pwr := rfl
@[simp] theorem Chip.latch_shelfReq (m : Master) (hi : Nat) (v : Word) : (c.latch m hi v).shelfReq = c.shelfReq := rfl
@[simp] theorem Chip.latch_snapReq (m : Master) (hi : Nat) (v : Word) : (c.latch m hi v).snapReq = c.snapReq := rfl
@[simp] theorem Chip.latch_tg (m : Master) (hi : Nat) (v : Word) : (c.latch m hi v).tg = c.tg := rfl
@[simp] theorem Chip.latch_regs (m : Master) (hi : Nat) (v : Word) : (c.latch m hi v).regs = c.regs := rfl
@[simp] theorem Chip.latch_mem (m : Master) (hi : Nat) (v : Word) : (c.latch m hi v).mem = c.mem := rfl
@[simp] theorem Chip.latch_badPar (m : Master) (hi : Nat) (v : Word) : (c.latch m hi v).badPar = c.badPar := rfl
@[simp] theorem Chip.latch_ecc (m : Master) (hi : Nat) (v : Word) : (c.latch m hi v).ecc = c.ecc := rfl
@[simp] theorem Chip.latch_snap (m : Master) (hi : Nat) (v : Word) : (c.latch m hi v).snap = c.snap := rfl
@[simp] theorem Chip.latch_fuses (m : Master) (hi : Nat) (v : Word) : (c.latch m hi v).fuses = c.fuses := rfl
@[simp] theorem Chip.latch_crc (m : Master) (hi : Nat) (v : Word) : (c.latch m hi v).crc = c.crc := rfl
@[simp] theorem Chip.latch_ev (m : Master) (hi : Nat) (v : Word) : (c.latch m hi v).ev = c.ev := rfl
@[simp] theorem Chip.latch_strands (m : Master) (hi : Nat) (v : Word) : (c.latch m hi v).strands = c.strands := rfl
@[simp] theorem Chip.latch_issue (m : Master) (hi : Nat) (v : Word) : (c.latch m hi v).issue = c.issue := rfl
@[simp] theorem Chip.latch_pmon (m : Master) (hi : Nat) (v : Word) : (c.latch m hi v).pmon = c.pmon := rfl
@[simp] theorem Chip.latch_inputs (m : Master) (hi : Nat) (v : Word) : (c.latch m hi v).inputs = c.inputs := rfl
@[simp] theorem Chip.latch_pins (m : Master) (hi : Nat) (v : Word) : (c.latch m hi v).pins = c.pins := rfl
@[simp] theorem Chip.latch_tiles (m : Master) (hi : Nat) (v : Word) : (c.latch m hi v).tiles = c.tiles := rfl
@[simp] theorem Chip.latch_fo (m : Master) (hi : Nat) (v : Word) : (c.latch m hi v).fo = c.fo := rfl
@[simp] theorem Chip.latch_hub (m : Master) (hi : Nat) (v : Word) : (c.latch m hi v).hub = c.hub := rfl
@[simp] theorem Chip.latch_loop (m : Master) (hi : Nat) (v : Word) : (c.latch m hi v).loop = c.loop := rfl
@[simp] theorem Chip.latch_alloc (m : Master) (hi : Nat) (v : Word) : (c.latch m hi v).alloc = c.alloc := rfl
@[simp] theorem Chip.latch_allocPend (m : Master) (hi : Nat) (v : Word) : (c.latch m hi v).allocPend = c.allocPend := rfl
@[simp] theorem Chip.latch_est (m : Master) (hi : Nat) (v : Word) : (c.latch m hi v).est = c.est := rfl
@[simp] theorem Chip.latch_therm (m : Master) (hi : Nat) (v : Word) : (c.latch m hi v).therm = c.therm := rfl
@[simp] theorem Chip.latch_age (m : Master) (hi : Nat) (v : Word) : (c.latch m hi v).age = c.age := rfl
@[simp] theorem Chip.latch_gate (m : Master) (hi : Nat) (v : Word) : (c.latch m hi v).gate = c.gate := rfl
@[simp] theorem Chip.latch_seq (m : Master) (hi : Nat) (v : Word) : (c.latch m hi v).seq = c.seq := rfl
@[simp] theorem Chip.latch_adc (m : Master) (hi : Nat) (v : Word) : (c.latch m hi v).adc = c.adc := rfl
@[simp] theorem Chip.latch_spl (m : Master) (hi : Nat) (v : Word) : (c.latch m hi v).spl = c.spl := rfl
@[simp] theorem Chip.latch_twb0 (m : Master) (hi : Nat) (v : Word) : (c.latch m hi v).twb0 = c.twb0 := rfl
@[simp] theorem Chip.latch_twb1 (m : Master) (hi : Nat) (v : Word) : (c.latch m hi v).twb1 = c.twb1 := rfl
@[simp] theorem Chip.latch_memc (m : Master) (hi : Nat) (v : Word) : (c.latch m hi v).memc = c.memc := rfl
@[simp] theorem Chip.latch_recd (m : Master) (hi : Nat) (v : Word) : (c.latch m hi v).recd = c.recd := rfl
@[simp] theorem Chip.latch_upd (m : Master) (hi : Nat) (v : Word) : (c.latch m hi v).upd = c.upd := rfl
@[simp] theorem Chip.latch_freeIx (m : Master) (hi : Nat) (v : Word) : (c.latch m hi v).freeIx = c.freeIx := rfl
@[simp] theorem Chip.latch_raised (m : Master) (hi : Nat) (v : Word) : (c.latch m hi v).raised = c.raised := rfl
@[simp] theorem Chip.latch_answer (m : Master) (hi : Nat) (v : Word) : (c.latch m hi v).answer = c.answer := rfl

/-! `Chip.useFree` changes freeIx only. -/

@[simp] theorem Chip.useFree_now : (c.useFree).now = c.now := rfl
@[simp] theorem Chip.useFree_pwr : (c.useFree).pwr = c.pwr := rfl
@[simp] theorem Chip.useFree_shelfReq : (c.useFree).shelfReq = c.shelfReq := rfl
@[simp] theorem Chip.useFree_snapReq : (c.useFree).snapReq = c.snapReq := rfl
@[simp] theorem Chip.useFree_tg : (c.useFree).tg = c.tg := rfl
@[simp] theorem Chip.useFree_regs : (c.useFree).regs = c.regs := rfl
@[simp] theorem Chip.useFree_shadows : (c.useFree).shadows = c.shadows := rfl
@[simp] theorem Chip.useFree_mem : (c.useFree).mem = c.mem := rfl
@[simp] theorem Chip.useFree_badPar : (c.useFree).badPar = c.badPar := rfl
@[simp] theorem Chip.useFree_ecc : (c.useFree).ecc = c.ecc := rfl
@[simp] theorem Chip.useFree_snap : (c.useFree).snap = c.snap := rfl
@[simp] theorem Chip.useFree_fuses : (c.useFree).fuses = c.fuses := rfl
@[simp] theorem Chip.useFree_crc : (c.useFree).crc = c.crc := rfl
@[simp] theorem Chip.useFree_ev : (c.useFree).ev = c.ev := rfl
@[simp] theorem Chip.useFree_strands : (c.useFree).strands = c.strands := rfl
@[simp] theorem Chip.useFree_issue : (c.useFree).issue = c.issue := rfl
@[simp] theorem Chip.useFree_pmon : (c.useFree).pmon = c.pmon := rfl
@[simp] theorem Chip.useFree_inputs : (c.useFree).inputs = c.inputs := rfl
@[simp] theorem Chip.useFree_pins : (c.useFree).pins = c.pins := rfl
@[simp] theorem Chip.useFree_tiles : (c.useFree).tiles = c.tiles := rfl
@[simp] theorem Chip.useFree_fo : (c.useFree).fo = c.fo := rfl
@[simp] theorem Chip.useFree_hub : (c.useFree).hub = c.hub := rfl
@[simp] theorem Chip.useFree_loop : (c.useFree).loop = c.loop := rfl
@[simp] theorem Chip.useFree_alloc : (c.useFree).alloc = c.alloc := rfl
@[simp] theorem Chip.useFree_allocPend : (c.useFree).allocPend = c.allocPend := rfl
@[simp] theorem Chip.useFree_est : (c.useFree).est = c.est := rfl
@[simp] theorem Chip.useFree_therm : (c.useFree).therm = c.therm := rfl
@[simp] theorem Chip.useFree_age : (c.useFree).age = c.age := rfl
@[simp] theorem Chip.useFree_gate : (c.useFree).gate = c.gate := rfl
@[simp] theorem Chip.useFree_seq : (c.useFree).seq = c.seq := rfl
@[simp] theorem Chip.useFree_adc : (c.useFree).adc = c.adc := rfl
@[simp] theorem Chip.useFree_spl : (c.useFree).spl = c.spl := rfl
@[simp] theorem Chip.useFree_twb0 : (c.useFree).twb0 = c.twb0 := rfl
@[simp] theorem Chip.useFree_twb1 : (c.useFree).twb1 = c.twb1 := rfl
@[simp] theorem Chip.useFree_memc : (c.useFree).memc = c.memc := rfl
@[simp] theorem Chip.useFree_recd : (c.useFree).recd = c.recd := rfl
@[simp] theorem Chip.useFree_upd : (c.useFree).upd = c.upd := rfl
@[simp] theorem Chip.useFree_raised : (c.useFree).raised = c.raised := rfl
@[simp] theorem Chip.useFree_answer : (c.useFree).answer = c.answer := rfl

/-! `Chip.raise` changes raised only. -/

@[simp] theorem Chip.raise_now (e k : Nat) : (c.raise e k).now = c.now := rfl
@[simp] theorem Chip.raise_pwr (e k : Nat) : (c.raise e k).pwr = c.pwr := rfl
@[simp] theorem Chip.raise_shelfReq (e k : Nat) : (c.raise e k).shelfReq = c.shelfReq := rfl
@[simp] theorem Chip.raise_snapReq (e k : Nat) : (c.raise e k).snapReq = c.snapReq := rfl
@[simp] theorem Chip.raise_tg (e k : Nat) : (c.raise e k).tg = c.tg := rfl
@[simp] theorem Chip.raise_regs (e k : Nat) : (c.raise e k).regs = c.regs := rfl
@[simp] theorem Chip.raise_shadows (e k : Nat) : (c.raise e k).shadows = c.shadows := rfl
@[simp] theorem Chip.raise_mem (e k : Nat) : (c.raise e k).mem = c.mem := rfl
@[simp] theorem Chip.raise_badPar (e k : Nat) : (c.raise e k).badPar = c.badPar := rfl
@[simp] theorem Chip.raise_ecc (e k : Nat) : (c.raise e k).ecc = c.ecc := rfl
@[simp] theorem Chip.raise_snap (e k : Nat) : (c.raise e k).snap = c.snap := rfl
@[simp] theorem Chip.raise_fuses (e k : Nat) : (c.raise e k).fuses = c.fuses := rfl
@[simp] theorem Chip.raise_crc (e k : Nat) : (c.raise e k).crc = c.crc := rfl
@[simp] theorem Chip.raise_ev (e k : Nat) : (c.raise e k).ev = c.ev := rfl
@[simp] theorem Chip.raise_strands (e k : Nat) : (c.raise e k).strands = c.strands := rfl
@[simp] theorem Chip.raise_issue (e k : Nat) : (c.raise e k).issue = c.issue := rfl
@[simp] theorem Chip.raise_pmon (e k : Nat) : (c.raise e k).pmon = c.pmon := rfl
@[simp] theorem Chip.raise_inputs (e k : Nat) : (c.raise e k).inputs = c.inputs := rfl
@[simp] theorem Chip.raise_pins (e k : Nat) : (c.raise e k).pins = c.pins := rfl
@[simp] theorem Chip.raise_tiles (e k : Nat) : (c.raise e k).tiles = c.tiles := rfl
@[simp] theorem Chip.raise_fo (e k : Nat) : (c.raise e k).fo = c.fo := rfl
@[simp] theorem Chip.raise_hub (e k : Nat) : (c.raise e k).hub = c.hub := rfl
@[simp] theorem Chip.raise_loop (e k : Nat) : (c.raise e k).loop = c.loop := rfl
@[simp] theorem Chip.raise_alloc (e k : Nat) : (c.raise e k).alloc = c.alloc := rfl
@[simp] theorem Chip.raise_allocPend (e k : Nat) : (c.raise e k).allocPend = c.allocPend := rfl
@[simp] theorem Chip.raise_est (e k : Nat) : (c.raise e k).est = c.est := rfl
@[simp] theorem Chip.raise_therm (e k : Nat) : (c.raise e k).therm = c.therm := rfl
@[simp] theorem Chip.raise_age (e k : Nat) : (c.raise e k).age = c.age := rfl
@[simp] theorem Chip.raise_gate (e k : Nat) : (c.raise e k).gate = c.gate := rfl
@[simp] theorem Chip.raise_seq (e k : Nat) : (c.raise e k).seq = c.seq := rfl
@[simp] theorem Chip.raise_adc (e k : Nat) : (c.raise e k).adc = c.adc := rfl
@[simp] theorem Chip.raise_spl (e k : Nat) : (c.raise e k).spl = c.spl := rfl
@[simp] theorem Chip.raise_twb0 (e k : Nat) : (c.raise e k).twb0 = c.twb0 := rfl
@[simp] theorem Chip.raise_twb1 (e k : Nat) : (c.raise e k).twb1 = c.twb1 := rfl
@[simp] theorem Chip.raise_memc (e k : Nat) : (c.raise e k).memc = c.memc := rfl
@[simp] theorem Chip.raise_recd (e k : Nat) : (c.raise e k).recd = c.recd := rfl
@[simp] theorem Chip.raise_upd (e k : Nat) : (c.raise e k).upd = c.upd := rfl
@[simp] theorem Chip.raise_freeIx (e k : Nat) : (c.raise e k).freeIx = c.freeIx := rfl
@[simp] theorem Chip.raise_answer (e k : Nat) : (c.raise e k).answer = c.answer := rfl

/-! `Chip.modTile` changes tiles only. -/

@[simp] theorem Chip.modTile_now (t : Nat) (f : Tile → Tile) : (c.modTile t f).now = c.now := rfl
@[simp] theorem Chip.modTile_pwr (t : Nat) (f : Tile → Tile) : (c.modTile t f).pwr = c.pwr := rfl
@[simp] theorem Chip.modTile_shelfReq (t : Nat) (f : Tile → Tile) : (c.modTile t f).shelfReq = c.shelfReq := rfl
@[simp] theorem Chip.modTile_snapReq (t : Nat) (f : Tile → Tile) : (c.modTile t f).snapReq = c.snapReq := rfl
@[simp] theorem Chip.modTile_tg (t : Nat) (f : Tile → Tile) : (c.modTile t f).tg = c.tg := rfl
@[simp] theorem Chip.modTile_regs (t : Nat) (f : Tile → Tile) : (c.modTile t f).regs = c.regs := rfl
@[simp] theorem Chip.modTile_shadows (t : Nat) (f : Tile → Tile) : (c.modTile t f).shadows = c.shadows := rfl
@[simp] theorem Chip.modTile_mem (t : Nat) (f : Tile → Tile) : (c.modTile t f).mem = c.mem := rfl
@[simp] theorem Chip.modTile_badPar (t : Nat) (f : Tile → Tile) : (c.modTile t f).badPar = c.badPar := rfl
@[simp] theorem Chip.modTile_ecc (t : Nat) (f : Tile → Tile) : (c.modTile t f).ecc = c.ecc := rfl
@[simp] theorem Chip.modTile_snap (t : Nat) (f : Tile → Tile) : (c.modTile t f).snap = c.snap := rfl
@[simp] theorem Chip.modTile_fuses (t : Nat) (f : Tile → Tile) : (c.modTile t f).fuses = c.fuses := rfl
@[simp] theorem Chip.modTile_crc (t : Nat) (f : Tile → Tile) : (c.modTile t f).crc = c.crc := rfl
@[simp] theorem Chip.modTile_ev (t : Nat) (f : Tile → Tile) : (c.modTile t f).ev = c.ev := rfl
@[simp] theorem Chip.modTile_strands (t : Nat) (f : Tile → Tile) : (c.modTile t f).strands = c.strands := rfl
@[simp] theorem Chip.modTile_issue (t : Nat) (f : Tile → Tile) : (c.modTile t f).issue = c.issue := rfl
@[simp] theorem Chip.modTile_pmon (t : Nat) (f : Tile → Tile) : (c.modTile t f).pmon = c.pmon := rfl
@[simp] theorem Chip.modTile_inputs (t : Nat) (f : Tile → Tile) : (c.modTile t f).inputs = c.inputs := rfl
@[simp] theorem Chip.modTile_pins (t : Nat) (f : Tile → Tile) : (c.modTile t f).pins = c.pins := rfl
@[simp] theorem Chip.modTile_fo (t : Nat) (f : Tile → Tile) : (c.modTile t f).fo = c.fo := rfl
@[simp] theorem Chip.modTile_hub (t : Nat) (f : Tile → Tile) : (c.modTile t f).hub = c.hub := rfl
@[simp] theorem Chip.modTile_loop (t : Nat) (f : Tile → Tile) : (c.modTile t f).loop = c.loop := rfl
@[simp] theorem Chip.modTile_alloc (t : Nat) (f : Tile → Tile) : (c.modTile t f).alloc = c.alloc := rfl
@[simp] theorem Chip.modTile_allocPend (t : Nat) (f : Tile → Tile) : (c.modTile t f).allocPend = c.allocPend := rfl
@[simp] theorem Chip.modTile_est (t : Nat) (f : Tile → Tile) : (c.modTile t f).est = c.est := rfl
@[simp] theorem Chip.modTile_therm (t : Nat) (f : Tile → Tile) : (c.modTile t f).therm = c.therm := rfl
@[simp] theorem Chip.modTile_age (t : Nat) (f : Tile → Tile) : (c.modTile t f).age = c.age := rfl
@[simp] theorem Chip.modTile_gate (t : Nat) (f : Tile → Tile) : (c.modTile t f).gate = c.gate := rfl
@[simp] theorem Chip.modTile_seq (t : Nat) (f : Tile → Tile) : (c.modTile t f).seq = c.seq := rfl
@[simp] theorem Chip.modTile_adc (t : Nat) (f : Tile → Tile) : (c.modTile t f).adc = c.adc := rfl
@[simp] theorem Chip.modTile_spl (t : Nat) (f : Tile → Tile) : (c.modTile t f).spl = c.spl := rfl
@[simp] theorem Chip.modTile_twb0 (t : Nat) (f : Tile → Tile) : (c.modTile t f).twb0 = c.twb0 := rfl
@[simp] theorem Chip.modTile_twb1 (t : Nat) (f : Tile → Tile) : (c.modTile t f).twb1 = c.twb1 := rfl
@[simp] theorem Chip.modTile_memc (t : Nat) (f : Tile → Tile) : (c.modTile t f).memc = c.memc := rfl
@[simp] theorem Chip.modTile_recd (t : Nat) (f : Tile → Tile) : (c.modTile t f).recd = c.recd := rfl
@[simp] theorem Chip.modTile_upd (t : Nat) (f : Tile → Tile) : (c.modTile t f).upd = c.upd := rfl
@[simp] theorem Chip.modTile_freeIx (t : Nat) (f : Tile → Tile) : (c.modTile t f).freeIx = c.freeIx := rfl
@[simp] theorem Chip.modTile_raised (t : Nat) (f : Tile → Tile) : (c.modTile t f).raised = c.raised := rfl
@[simp] theorem Chip.modTile_answer (t : Nat) (f : Tile → Tile) : (c.modTile t f).answer = c.answer := rfl

/-! `Chip.modStrand` changes strands only. -/

@[simp] theorem Chip.modStrand_now (n : Nat) (f : Strand → Strand) : (c.modStrand n f).now = c.now := rfl
@[simp] theorem Chip.modStrand_pwr (n : Nat) (f : Strand → Strand) : (c.modStrand n f).pwr = c.pwr := rfl
@[simp] theorem Chip.modStrand_shelfReq (n : Nat) (f : Strand → Strand) : (c.modStrand n f).shelfReq = c.shelfReq := rfl
@[simp] theorem Chip.modStrand_snapReq (n : Nat) (f : Strand → Strand) : (c.modStrand n f).snapReq = c.snapReq := rfl
@[simp] theorem Chip.modStrand_tg (n : Nat) (f : Strand → Strand) : (c.modStrand n f).tg = c.tg := rfl
@[simp] theorem Chip.modStrand_regs (n : Nat) (f : Strand → Strand) : (c.modStrand n f).regs = c.regs := rfl
@[simp] theorem Chip.modStrand_shadows (n : Nat) (f : Strand → Strand) : (c.modStrand n f).shadows = c.shadows := rfl
@[simp] theorem Chip.modStrand_mem (n : Nat) (f : Strand → Strand) : (c.modStrand n f).mem = c.mem := rfl
@[simp] theorem Chip.modStrand_badPar (n : Nat) (f : Strand → Strand) : (c.modStrand n f).badPar = c.badPar := rfl
@[simp] theorem Chip.modStrand_ecc (n : Nat) (f : Strand → Strand) : (c.modStrand n f).ecc = c.ecc := rfl
@[simp] theorem Chip.modStrand_snap (n : Nat) (f : Strand → Strand) : (c.modStrand n f).snap = c.snap := rfl
@[simp] theorem Chip.modStrand_fuses (n : Nat) (f : Strand → Strand) : (c.modStrand n f).fuses = c.fuses := rfl
@[simp] theorem Chip.modStrand_crc (n : Nat) (f : Strand → Strand) : (c.modStrand n f).crc = c.crc := rfl
@[simp] theorem Chip.modStrand_ev (n : Nat) (f : Strand → Strand) : (c.modStrand n f).ev = c.ev := rfl
@[simp] theorem Chip.modStrand_issue (n : Nat) (f : Strand → Strand) : (c.modStrand n f).issue = c.issue := rfl
@[simp] theorem Chip.modStrand_pmon (n : Nat) (f : Strand → Strand) : (c.modStrand n f).pmon = c.pmon := rfl
@[simp] theorem Chip.modStrand_inputs (n : Nat) (f : Strand → Strand) : (c.modStrand n f).inputs = c.inputs := rfl
@[simp] theorem Chip.modStrand_pins (n : Nat) (f : Strand → Strand) : (c.modStrand n f).pins = c.pins := rfl
@[simp] theorem Chip.modStrand_tiles (n : Nat) (f : Strand → Strand) : (c.modStrand n f).tiles = c.tiles := rfl
@[simp] theorem Chip.modStrand_fo (n : Nat) (f : Strand → Strand) : (c.modStrand n f).fo = c.fo := rfl
@[simp] theorem Chip.modStrand_hub (n : Nat) (f : Strand → Strand) : (c.modStrand n f).hub = c.hub := rfl
@[simp] theorem Chip.modStrand_loop (n : Nat) (f : Strand → Strand) : (c.modStrand n f).loop = c.loop := rfl
@[simp] theorem Chip.modStrand_alloc (n : Nat) (f : Strand → Strand) : (c.modStrand n f).alloc = c.alloc := rfl
@[simp] theorem Chip.modStrand_allocPend (n : Nat) (f : Strand → Strand) : (c.modStrand n f).allocPend = c.allocPend := rfl
@[simp] theorem Chip.modStrand_est (n : Nat) (f : Strand → Strand) : (c.modStrand n f).est = c.est := rfl
@[simp] theorem Chip.modStrand_therm (n : Nat) (f : Strand → Strand) : (c.modStrand n f).therm = c.therm := rfl
@[simp] theorem Chip.modStrand_age (n : Nat) (f : Strand → Strand) : (c.modStrand n f).age = c.age := rfl
@[simp] theorem Chip.modStrand_gate (n : Nat) (f : Strand → Strand) : (c.modStrand n f).gate = c.gate := rfl
@[simp] theorem Chip.modStrand_seq (n : Nat) (f : Strand → Strand) : (c.modStrand n f).seq = c.seq := rfl
@[simp] theorem Chip.modStrand_adc (n : Nat) (f : Strand → Strand) : (c.modStrand n f).adc = c.adc := rfl
@[simp] theorem Chip.modStrand_spl (n : Nat) (f : Strand → Strand) : (c.modStrand n f).spl = c.spl := rfl
@[simp] theorem Chip.modStrand_twb0 (n : Nat) (f : Strand → Strand) : (c.modStrand n f).twb0 = c.twb0 := rfl
@[simp] theorem Chip.modStrand_twb1 (n : Nat) (f : Strand → Strand) : (c.modStrand n f).twb1 = c.twb1 := rfl
@[simp] theorem Chip.modStrand_memc (n : Nat) (f : Strand → Strand) : (c.modStrand n f).memc = c.memc := rfl
@[simp] theorem Chip.modStrand_recd (n : Nat) (f : Strand → Strand) : (c.modStrand n f).recd = c.recd := rfl
@[simp] theorem Chip.modStrand_upd (n : Nat) (f : Strand → Strand) : (c.modStrand n f).upd = c.upd := rfl
@[simp] theorem Chip.modStrand_freeIx (n : Nat) (f : Strand → Strand) : (c.modStrand n f).freeIx = c.freeIx := rfl
@[simp] theorem Chip.modStrand_raised (n : Nat) (f : Strand → Strand) : (c.modStrand n f).raised = c.raised := rfl
@[simp] theorem Chip.modStrand_answer (n : Nat) (f : Strand → Strand) : (c.modStrand n f).answer = c.answer := rfl

/-! What each update writes. -/

@[simp] theorem Chip.setReg_regs (a : Nat) (v : Word) : (c.setReg a v).regs = tput regReset c.regs a v := rfl
@[simp] theorem Chip.setByte_mem (a : Nat) (b : Byte) : (c.setByte a b).mem = tput memInit c.mem a b := rfl
@[simp] theorem Chip.useFree_freeIx : c.useFree.freeIx = c.freeIx + 1 := rfl
@[simp] theorem Chip.raise_raised (e k : Nat) :
    (c.raise e k).raised = c.raised ++ [{ ev := e, src := k, stamp := c.tg.tick }] := rfl
@[simp] theorem Chip.modTile_tiles (t : Nat) (f : Tile → Tile) : (c.modTile t f).tiles = c.tiles.modify t f := rfl
@[simp] theorem Chip.modStrand_strands (n : Nat) (f : Strand → Strand) :
    (c.modStrand n f).strands = c.strands.modify n f := rfl

/-- A raising changes no register. -/
@[simp] theorem Chip.raise_reg (e k a : Nat) : (c.raise e k).reg a = c.reg a := rfl

/-- A raising changes no byte. -/
@[simp] theorem Chip.raise_byte (e k a : Nat) : (c.raise e k).byte a = c.byte a := rfl

/-- A register write changes no byte. -/
@[simp] theorem Chip.setReg_byte (a b : Nat) (v : Word) : (c.setReg a v).byte b = c.byte b := rfl

/-- A byte store changes no register. -/
@[simp] theorem Chip.setByte_reg (a b : Nat) (x : Byte) : (c.setByte a x).reg b = c.reg b := rfl

/-- Changing one strand leaves the others. -/
theorem Chip.strand_modStrand_ne (n m : Nat) (f : Strand → Strand) (h : m ≠ n) :
    (c.modStrand n f).strand m = c.strand m := by
  simp [Chip.strand, Chip.modStrand, List.getD_eq_getElem?_getD, Ne.symm h]

/-- The changed strand. -/
theorem Chip.strand_modStrand (n : Nat) (f : Strand → Strand) (h : n < c.strands.length) :
    (c.modStrand n f).strand n = f (c.strand n) := by
  simp [Chip.strand, Chip.modStrand, List.getD_eq_getElem?_getD, h]

/-- Changing one tile leaves the other. -/
theorem Chip.tile_modTile_ne (n m : Nat) (f : Tile → Tile) (h : m ≠ n) : (c.modTile n f).tile m = c.tile m := by
  simp [Chip.tile, Chip.modTile, List.getD_eq_getElem?_getD, Ne.symm h]

/-- The changed tile. -/
theorem Chip.tile_modTile (n : Nat) (f : Tile → Tile) (h : n < c.tiles.length) :
    (c.modTile n f).tile n = f (c.tile n) := by
  simp [Chip.tile, Chip.modTile, List.getD_eq_getElem?_getD, h]

end Sys2Proof.Machine
end

