-- ==== Sys2Proof/Laws/Access.lean ====
section
/-! SUPPORT. The bus operations that commands are written with, each with what it does where the access is granted and
where it is refused. -/

namespace Sys2Proof.Machine

variable (c : Chip) (m : Master) (a : Nat) (v : Word)

/-- A granted write of a register by a command: the register's write and the answer `done`. -/
theorem command1_granted (hb : inBlock a = true) (h : c.writeGrant m a 4 = true) :
    c.command1 m a v = { c.regWrite a v with answer := .done } := by
  simp [Chip.command1, Chip.accessWrite, Chip.busWrite, hb, h, word]

/-- A refused write of a register by a command: counted, delivered, answered as a bus error. -/
theorem command1_refused (hb : inBlock a = true) (h : c.writeGrant m a 4 = false) :
    c.command1 m a v = { (c.busErrors m a).deliverError m a 4 with answer := .busError } := by
  simp [Chip.command1, Chip.accessWrite, Chip.busWrite, hb, h]

/-- A granted write of a register is one of a block. -/
theorem writeGrant_inBlock {c : Chip} {m : Master} {a n : Nat} (h : c.writeGrant m a n = true) : inBlock a = true := by
  simp only [Chip.writeGrant, Chip.regGrant, Bool.and_eq_true] at h
  exact h.1.1.1.1.1.1

/-- A granted access is of four bytes, aligned, of a block whose domain is up. -/
theorem regGrant_up {c : Chip} {m : Master} {a n : Nat} {load : Bool} (h : c.regGrant m a n load = true) :
    inBlock a = true ∧ n = 4 ∧ a % 4 = 0 ∧ c.up (blockDom a) = true := by
  simp only [Chip.regGrant, Bool.and_eq_true, beq_iff_eq] at h
  exact ⟨h.1.1.1.1.1, h.1.1.1.1.2, h.1.1.1.2, h.1.2⟩

/-- A granted read of a register: its value, and the read's effect. -/
theorem accessRead_granted (h : c.regGrant m a 4 true = true) :
    c.accessRead m a 4 = { c.readEffect m a with answer := .value (c.regRead m a) } := by
  simp [Chip.accessRead, Chip.busRead, (regGrant_up h).1, h, word]

/-- A refused read of a register. -/
theorem accessRead_refused (hb : inBlock a = true) (h : c.regGrant m a 4 true = false) :
    c.accessRead m a 4 = { (c.busErrors m a).deliverError m a 4 with answer := .busError } := by
  simp [Chip.accessRead, Chip.busRead, hb, h]

/-- A granted write whose effect is a function of the part. -/
theorem accessBy_granted (f : Chip → Chip) (h : c.writeGrant m a 4 = true) :
    c.accessBy m a f = { f c with answer := .done } := by
  simp [Chip.accessBy, h]

/-- Its refusal. -/
theorem accessBy_refused (f : Chip → Chip) (h : c.writeGrant m a 4 = false) :
    c.accessBy m a f = { (c.busErrors m a).deliverError m a 4 with answer := .busError } := by
  simp [Chip.accessBy, h]

/-- A meaning that is a write of one register, where the bus grants it. -/
theorem run_command1 {s : State} (h : s.chip.writeGrant m a 4 = true) :
    (s.run fun c => c.command1 m a v) = .next (s.after { s.chip.regWrite a v with answer := .done }) := by
  rw [State.run, command1_granted _ _ _ _ (writeGrant_inBlock h) h]

/-- A command's next state has the part its meaning gives, settled, and the queue as it was. -/
@[simp] theorem after_chip (s : State) (c : Chip) : (s.after c).chip = c.settle := rfl

@[simp] theorem after_pending (s : State) (c : Chip) : (s.after c).pending = s.pending := rfl

end Sys2Proof.Machine
end

