-- ==== Sys2Proof/Laws/Tables.lean ====
section
/-! SUPPORT. The sparse tables: reading after writing, and that every operation keeps the canonical form. -/

namespace Sys2Proof.Machine

variable {α : Type}

/-- The value of a canonical table at a key, with what unlisted keys read as. -/
theorem tget_cons (k : Nat) (v : α) (t : List (Nat × α)) (a : Nat) :
    tget ((k, v) :: t) a = if a = k then some v else if a < k then none else tget t a := rfl

theorem tget_none_of_lt [DecidableEq α] (d : Nat → α) : ∀ (t : List (Nat × α)) (lo a : Nat),
    twf d lo t = true → a < lo → tget t a = none
  | [], _, _, _, _ => rfl
  | (k, v) :: t, lo, a, h, hl => by
    simp only [twf, Bool.and_eq_true, decide_eq_true_eq] at h
    simp only [tget_cons]
    rw [if_neg (by omega), if_pos (by omega)]

theorem tget_tset : ∀ (t : List (Nat × α)) (a b : Nat) (x : α),
    tget (tset t a x) b = if b = a then some x else tget t b
  | [], a, b, x => by
    by_cases h : b = a <;> by_cases h2 : b < a <;> simp [tset, tget, h, h2]
  | (k, v) :: t, a, b, x => by
    have ih := tget_tset t a b x
    by_cases hak : a = k
    · subst hak
      by_cases hb : b = a <;> simp [tset, tget, hb]
    · by_cases hl : a < k
      · simp only [tset, if_neg hak, if_pos hl, tget_cons]
        by_cases hb : b = a
        · simp [hb]
        · simp only [if_neg hb]
          by_cases hba : b < a
          · rw [if_pos hba, if_neg (by omega), if_pos (by omega)]
          · rw [if_neg hba]
      · simp only [tset, if_neg hak, if_neg hl, tget_cons, ih]
        by_cases hb : b = a
        · subst hb; simp [hak, hl]
        · simp [hb]

theorem tget_tdel [DecidableEq α] (d : Nat → α) : ∀ (t : List (Nat × α)) (lo a b : Nat),
    twf d lo t = true → tget (tdel t a) b = if b = a then none else tget t b
  | [], _, a, b, _ => by simp [tdel, tget]
  | (k, v) :: t, lo, a, b, h => by
    simp only [twf, Bool.and_eq_true, decide_eq_true_eq] at h
    have ih := tget_tdel d t (k + 1) a b h.2
    by_cases hak : a = k
    · subst hak
      simp only [tdel, if_pos, tget_cons]
      by_cases hb : b = a
      · subst hb; simp [tget_none_of_lt d t _ _ h.2 (Nat.lt_succ_self _)]
      · simp only [if_neg hb]
        by_cases hba : b < a
        · rw [if_pos hba, tget_none_of_lt d t _ _ h.2 (by omega)]
        · rw [if_neg hba]
    · by_cases hl : a < k
      · simp only [tdel, if_neg hak, if_pos hl]
        by_cases hb : b = a
        · subst hb; simp [tget_cons, hak, hl]
        · simp [hb]
      · simp only [tdel, if_neg hak, if_neg hl, tget_cons, ih]
        by_cases hb : b = a
        · subst hb; simp [hak, hl]
        · simp [hb]

theorem tget_tput [DecidableEq α] (d : Nat → α) (t : List (Nat × α)) (lo a b : Nat) (x : α) (h : twf d lo t = true) :
    (tget (tput d t a x) b).getD (d b) = if b = a then x else (tget t b).getD (d b) := by
  unfold tput
  by_cases hx : x = d a
  · rw [if_pos hx, tget_tdel d t lo a b h]
    by_cases hb : b = a
    · subst hb; simp [hx]
    · simp [hb]
  · rw [if_neg hx, tget_tset]
    by_cases hb : b = a <;> simp [hb]

theorem twf_mono [DecidableEq α] (d : Nat → α) : ∀ (t : List (Nat × α)) (lo lo' : Nat),
    twf d lo t = true → lo' ≤ lo → twf d lo' t = true
  | [], _, _, _, _ => rfl
  | (k, v) :: t, lo, lo', h, hl => by
    simp only [twf, Bool.and_eq_true, decide_eq_true_eq] at h ⊢
    exact ⟨⟨by omega, h.1.2⟩, h.2⟩

theorem twf_tset [DecidableEq α] (d : Nat → α) : ∀ (t : List (Nat × α)) (lo a : Nat) (x : α),
    twf d lo t = true → lo ≤ a → x ≠ d a → twf d lo (tset t a x) = true
  | [], lo, a, x, _, hl, hx => by simp [tset, twf, hl, hx]
  | (k, v) :: t, lo, a, x, h, hl, hx => by
    simp only [twf, Bool.and_eq_true, decide_eq_true_eq] at h
    by_cases hak : a = k
    · subst hak; simp [tset, twf, hl, hx, h.2]
    · by_cases hlt : a < k
      · simp only [tset, if_neg hak, if_pos hlt, twf, Bool.and_eq_true, decide_eq_true_eq]
        exact ⟨⟨hl, hx⟩, ⟨by omega, h.1.2⟩, h.2⟩
      · simp only [tset, if_neg hak, if_neg hlt, twf, Bool.and_eq_true, decide_eq_true_eq]
        exact ⟨h.1, twf_tset d t (k + 1) a x h.2 (by omega) hx⟩

theorem twf_tdel [DecidableEq α] (d : Nat → α) : ∀ (t : List (Nat × α)) (lo a : Nat),
    twf d lo t = true → twf d lo (tdel t a) = true
  | [], _, _, _ => rfl
  | (k, v) :: t, lo, a, h => by
    simp only [twf, Bool.and_eq_true, decide_eq_true_eq] at h
    by_cases hak : a = k
    · subst hak; simp only [tdel, if_pos]; exact twf_mono d t _ _ h.2 (by omega)
    · by_cases hlt : a < k
      · simp [tdel, hak, hlt, twf, h]
      · simp only [tdel, if_neg hak, if_neg hlt, twf, Bool.and_eq_true, decide_eq_true_eq]
        exact ⟨h.1, twf_tdel d t (k + 1) a h.2⟩

/-- Putting a value keeps a table canonical. -/
theorem twf_tput [DecidableEq α] (d : Nat → α) (t : List (Nat × α)) (a : Nat) (x : α) (h : twf d 0 t = true) :
    twf d 0 (tput d t a x) = true := by
  unfold tput
  by_cases hx : x = d a
  · rw [if_pos hx]; exact twf_tdel d t 0 a h
  · rw [if_neg hx]; exact twf_tset d t 0 a x h (Nat.zero_le _) hx

/-- Forgetting entries keeps a table canonical. -/
theorem twf_filter [DecidableEq α] (d : Nat → α) (p : Nat × α → Bool) : ∀ (t : List (Nat × α)) (lo : Nat),
    twf d lo t = true → twf d lo (t.filter p) = true
  | [], _, _ => rfl
  | (k, v) :: t, lo, h => by
    simp only [twf, Bool.and_eq_true, decide_eq_true_eq] at h
    have ih := twf_filter d p t (k + 1) h.2
    simp only [List.filter_cons]
    by_cases hp : p (k, v) = true
    · simp only [hp, if_true, twf, Bool.and_eq_true, decide_eq_true_eq]; exact ⟨h.1, ih⟩
    · simp only [hp]; exact twf_mono d _ _ _ ih (by omega)

end Sys2Proof.Machine
end

