-- ==== Sys2Proof/Laws/Flash.lean ====
section
/-! SUPPORT. Reading flash: words whose check bits were never disturbed, erased words, and the bytes of a span. -/

namespace Sys2Proof.Machine

/-- A table that lists only smaller keys lists nothing at a larger one. -/
theorem tget_none_of_gt {α : Type} : ∀ (t : List (Nat × α)) (a : Nat), (∀ p ∈ t, p.1 < a) → tget t a = none
  | [], _, _ => rfl
  | (k, v) :: t, a, h => by
    have hk : k < a := h (k, v) (by simp)
    rw [tget_cons, if_neg (by omega), if_neg (by omega)]
    exact tget_none_of_gt t a fun p hp => h p (List.mem_cons_of_mem _ hp)

/-- Flash data depends on memory alone. -/
theorem flashData_congr (c c' : Chip) (a : Nat) (h : c.mem = c'.mem) : c.flashData a = c'.flashData a := by
  have hb : ∀ n a, c.bytesNat a n = c'.bytesNat a n := fun n => by
    induction n with
    | zero => intro a; rfl
    | succ n ih => intro a; rw [Chip.bytesNat, Chip.bytesNat, ih, Chip.byte, Chip.byte, h]
  rw [Chip.flashData, Chip.flashData, hb]

/-- Every byte of an aligned flash word reads that word. -/
theorem flashRead_word (c : Chip) (a i : Nat) (ha : a % 8 = 0) (hi : i < 8) : c.flashRead (a + i) = c.flashRead a := by
  have e : (a + i) / 8 * 8 = a / 8 * 8 := by omega
  have hd : c.flashData (a + i) = c.flashData a := by rw [Chip.flashData, Chip.flashData, e]
  have hk : c.flashChk (a + i) = c.flashChk a := by rw [Chip.flashChk, Chip.flashChk, hd, e]
  have hr : c.erased (a + i) = c.erased a := by rw [Chip.erased, Chip.erased, hd, hk]
  rw [Chip.flashRead, Chip.flashRead, hd, hk, hr]

/-- A span of bytes splits anywhere. -/
theorem flashBytes_add (c : Chip) (a m n : Nat) :
    c.flashBytes a (m + n) = c.flashBytes a m ++ c.flashBytes (a + m) n := by
  rw [Chip.flashBytes, List.range_add, List.map_append, List.map_map]
  refine congrArg _ (List.map_congr_left fun i _ => ?_)
  rw [Function.comp_apply, Nat.add_assoc]

/-- The bytes of an aligned flash word that reads well. -/
theorem flashBytes_word (c : Chip) (a : Nat) (d : BitVec 64) (e : Bool) (ha : a % 8 = 0)
    (h : c.flashRead a = some (d, e)) :
    c.flashBytes a 8 = (List.range 8).map fun i => BitVec.ofNat 8 (d.toNat / 256 ^ i) := by
  unfold Chip.flashBytes
  refine List.map_congr_left fun i hi => ?_
  rw [List.mem_range] at hi
  rw [flashRead_word c a i ha hi, h, show (a + i) % 8 = i by omega]

/-- The check bits a word is stored with agree with it. -/
def eccAgrees (d : BitVec 64) : Bool :=
  let k := (eccBits d).toNat
  (natParity 64 d.toNat == natParity 8 k) && Nat.xor (eccSyndrome d) (k % 128) == 0 && d != BitVec.allOnes 64

/-- A word whose check bits nothing disturbed reads as stored. -/
theorem flashRead_stored (c : Chip) (a : Nat) (d : BitVec 64) (he : tget c.ecc (a / 8 * 8) = none)
    (hd : c.flashData a = d) (hok : eccAgrees d = true) : c.flashRead a = some (d, false) := by
  simp only [eccAgrees, Bool.and_eq_true, beq_iff_eq, bne_iff_ne, ne_eq] at hok
  obtain ⟨⟨hp, hs⟩, hne⟩ := hok
  have hk : c.flashChk a = eccBits d := by rw [Chip.flashChk, he, hd, if_neg hne, Option.getD_none]
  have hr : c.erased a = false := by rw [Chip.erased, hd, decide_eq_false hne, Bool.false_and]
  have hs' : eccSyndrome d ^^^ (eccBits d).toNat % 128 = 0 := hs
  simp [Chip.flashRead, hr, hd, hk, hp, hs']

/-- Flash bytes that nothing programmed are ones. -/
theorem bytesNat_blank (c : Chip) : ∀ (n a : Nat), (∀ i, i < n → c.byte (a + i) = 0xFF) →
    c.bytesNat a n = 256 ^ n - 1
  | 0, _, _ => rfl
  | n + 1, a, h => by
    have ih := bytesNat_blank c n (a + 1) fun i hi => by
      rw [Nat.add_assoc, Nat.add_comm 1 i]; exact h (i + 1) (by omega)
    have h0 := h 0 (by omega)
    rw [Nat.add_zero] at h0
    have hp : 0 < 256 ^ n := Nat.pow_pos (by omega)
    rw [Chip.bytesNat, ih, h0, Nat.pow_succ]
    show 255 + 256 * (256 ^ n - 1) = 256 ^ n * 256 - 1
    omega

/-- A flash word that nothing programmed is erased. -/
theorem erased_blank (c : Chip) (a : Nat) (he : tget c.ecc (a / 8 * 8) = none)
    (h : ∀ i, i < 8 → c.byte (a / 8 * 8 + i) = 0xFF) : c.erased a = true := by
  have hd : c.flashData a = BitVec.allOnes 64 := by
    rw [Chip.flashData, bytesNat_blank c 8 _ h]; rfl
  simp [Chip.erased, Chip.flashChk, he, hd]

/-- Flash that lists nothing from an address on is erased there. -/
theorem erased_above (c : Chip) (lo a : Nat) (he : c.ecc = []) (hm : ∀ p ∈ c.mem, p.1 < lo) (hl : lo ≤ a / 8 * 8)
    (hh : a < 0x140000) : c.erased a = true := by
  refine erased_blank c a (by rw [he]; rfl) fun i hi => ?_
  have hn : tget c.mem (a / 8 * 8 + i) = none :=
    tget_none_of_gt _ _ fun p hp => by have := hm p hp; omega
  simp only [Chip.byte, hn, Option.getD_none, memInit]
  rw [if_pos (by omega)]

/-- An empty boot-control log has no newest entry. -/
theorem bootNewest_none (c : Chip) (he : c.ecc = []) (hm : ∀ p ∈ c.mem, p.1 < 0xFE000) : c.bootNewest = none := by
  have h : ∀ k ∈ List.range 256, c.bootEntryAt k = none := fun k hk => by
    rw [List.mem_range] at hk
    have : (List.range 4).all (fun i => c.erased (bootLogAt k + 8 * i)) = true := by
      rw [List.all_eq_true]
      intro i hi
      rw [List.mem_range] at hi
      exact erased_above c 0xFE000 _ he hm (by simp only [bootLogAt]; omega) (by simp only [bootLogAt]; omega)
    simp only [Chip.bootEntryAt, this, if_true]
  have hf : (List.range 256).filterMap c.bootEntryAt = [] := by
    rw [List.filterMap_eq_nil_iff]; exact h
  rw [Chip.bootNewest, hf]
  rfl

/-- An empty record ring has no newest record. -/
theorem newestPos_none (c : Chip) (he : c.ecc = []) (hm : ∀ p ∈ c.mem, p.1 < 0x100000) : c.newestPos = none := by
  have h : ∀ k, c.posErased k = true := fun k => by
    rw [Chip.posErased, List.all_eq_true]
    intro i hi
    rw [List.mem_range] at hi
    exact erased_above c 0x100000 _ he hm (by simp only [recAddr]; omega) (by simp only [recAddr]; omega)
  rw [Chip.newestPos, List.find?_eq_none]
  intro k _
  simp [Chip.posValid, h k]

end Sys2Proof.Machine
end

