-- ==== Sys2Proof/Laws/Inv.lean ====
section
/-! SUPPORT. The invariant of the part: how it passes through record updates, pairs and folds. -/

namespace Sys2Proof.Machine

/-- A record update: only the fields of the shape count. -/
theorem inv_mk
    {a0 a1 a2 a3 a4 a5 a6 a7 a8 a9 a10 a11 a12 a13 a14 a15 a16 a17 a18 a19 a20 a21 a22 a23 a24 a25 a26 a27 a28
    a29 a30 a31 a32 a33 a34 a35 a36 a37 a38 a39} :
    (Chip.mk a0 a1 a2 a3 a4 a5 a6 a7 a8 a9 a10 a11 a12 a13 a14 a15 a16 a17 a18 a19 a20 a21 a22 a23 a24 a25 a26
      a27 a28 a29 a30 a31 a32 a33 a34 a35 a36 a37 a38 a39).Inv = Shape a7 a5 a6 a14 a19 a17 a16 a13 := rfl

/-- The same as an implication. -/
theorem inv_mk1
    {a0 a1 a2 a3 a4 a5 a6 a7 a8 a9 a10 a11 a12 a13 a14 a15 a16 a17 a18 a19 a20 a21 a22 a23 a24 a25 a26 a27 a28
    a29 a30 a31 a32 a33 a34 a35 a36 a37 a38 a39}
    (h : Shape a7 a5 a6 a14 a19 a17 a16 a13) :
    (Chip.mk a0 a1 a2 a3 a4 a5 a6 a7 a8 a9 a10 a11 a12 a13 a14 a15 a16 a17 a18 a19 a20 a21 a22 a23 a24 a25 a26
      a27 a28 a29 a30 a31 a32 a33 a34 a35 a36 a37 a38 a39).Inv := h

/-- Both branches keep it. -/
theorem inv_ite {p : Prop} [Decidable p] {a b : Chip} (ha : a.Inv) (hb : b.Inv) : (if p then a else b).Inv := by
  split
  · exact ha
  · exact hb

/-- The shape of a part that has the invariant. -/
theorem inv_shape {c : Chip} (h : c.Inv) :
    Shape c.mem c.regs c.shadows c.strands c.tiles c.inputs c.pmon c.ev := h

theorem inv_fst {β : Type} {p : Chip × β} {a : Chip} {b : β} (e : p = (a, b)) (h : p.1.Inv) : a.Inv := by
  subst e; exact h

theorem inv_snd {β : Type} {p : β × Chip} {a : Chip} {b : β} (e : p = (b, a)) (h : p.2.Inv) : a.Inv := by
  subst e; exact h

theorem inv_left {β : Type} {a : Chip} {b : β} (h : a.Inv) : (a, b).1.Inv := h

theorem inv_right {β : Type} {a : Chip} {b : β} (h : a.Inv) : (b, a).2.Inv := h

/-- A fold of steps that keep the invariant keeps it. -/
theorem foldl_inv {α : Type} (f : Chip → α → Chip) (l : List α) (c : Chip)
    (hf : ∀ c a, c.Inv → (f c a).Inv) (h : c.Inv) : (l.foldl f c).Inv := by
  induction l generalizing c with
  | nil => exact h
  | cons a l ih => exact ih _ (hf c a h)

end Sys2Proof.Machine
end

