-- ==== Sys2Proof/Laws/Memory.lean ====
section
/-! SUPPORT. Memory and registers as tables: reading back what was written, what else stays, and that every operation on
memory keeps its canonical form, which reset memory has. -/

namespace Sys2Proof.Machine

variable {c : Chip}

/-- Memory after reset is canonical. -/
theorem reset_mem_wf : Memory.wf State.reset.chip.mem = true := rfl

/-- A stored byte reads back and no other byte changes. -/
theorem byte_setByte (h : Memory.wf c.mem = true) (a b : Nat) (x : Byte) :
    (c.setByte a x).byte b = if b = a then x else c.byte b := tget_tput memInit c.mem 0 a b x h

/-- A set register reads back and no other register changes. -/
theorem reg_setReg (h : twf regReset 0 c.regs = true) (a b : Nat) (v : Word) :
    (c.setReg a v).reg b = if b = a then v else c.reg b := tget_tput regReset c.regs 0 a b v h

/-- A latched shadow reads back for its master and high half, and no other shadow changes. -/
theorem shadow_latch (h : twf (fun _ => (0 : Word)) 0 c.shadows = true) (m k : Master) (a b : Nat) (v : Word) :
    (c.latch m a v).shadow k b = if shadowKey k b = shadowKey m a then v else c.shadow k b :=
  tget_tput (fun _ => 0) c.shadows 0 (shadowKey m a) (shadowKey k b) v h

/-! Every operation on memory keeps the canonical form. -/

theorem setByte_wf (h : Memory.wf c.mem = true) (a : Nat) (x : Byte) : Memory.wf (c.setByte a x).mem = true :=
  twf_tput memInit c.mem a x h

theorem setReg_wf (h : twf regReset 0 c.regs = true) (a : Nat) (v : Word) : twf regReset 0 (c.setReg a v).regs = true :=
  twf_tput regReset c.regs a v h

theorem blank_wf (h : Memory.wf c.mem = true) (lo hi : Nat) : Memory.wf (c.blank lo hi).mem = true :=
  twf_filter memInit _ c.mem 0 h

theorem setBytesNat_wf (n : Nat) : ∀ {c : Chip} (a v : Nat), Memory.wf c.mem = true →
    Memory.wf (c.setBytesNat a v n).mem = true := by
  induction n with
  | zero => exact fun _ _ h => h
  | succ n ih => exact fun a v h => ih _ _ (setByte_wf h a _)

theorem putBytes_wf (n : Nat) : ∀ {c : Chip} (a v : Nat), Memory.wf c.mem = true →
    Memory.wf (c.putBytes a v n).mem = true := by
  induction n with
  | zero => exact fun _ _ h => h
  | succ n ih => exact fun a v h => ih _ _ (setByte_wf h a _)

theorem putByteChk_wf (h : Memory.wf c.mem = true) (a : Nat) (x : Byte) (p : Bool) :
    Memory.wf (c.putByteChk a x p).mem = true := by
  unfold Chip.putByteChk
  dsimp only
  split <;> exact setByte_wf h a x

theorem flashStore_wf (h : Memory.wf c.mem = true) (a : Nat) (lo hi : Word) (k : Option Byte) :
    Memory.wf (c.flashStore a lo hi k).mem = true := by
  have h2 := setBytesNat_wf 4 (a / 8 * 8 + 4) hi.toNat (setBytesNat_wf 4 (a / 8 * 8) lo.toNat h)
  unfold Chip.flashStore
  dsimp only
  generalize (c.setBytesNat (a / 8 * 8) lo.toNat 4).setBytesNat (a / 8 * 8 + 4) hi.toNat 4 = d at h2 ⊢
  exact h2

theorem foldl_mem_wf {α : Type} (f : Chip → α → Chip)
    (hf : ∀ c a, Memory.wf c.mem = true → Memory.wf (f c a).mem = true) (l : List α) :
    ∀ {c : Chip}, Memory.wf c.mem = true → Memory.wf (l.foldl f c).mem = true := by
  induction l with
  | nil => exact id
  | cons a l ih => exact fun h => ih (hf _ a h)

theorem storeRecord_wf (h : Memory.wf c.mem = true) (a : Nat) (bs : List Byte) :
    Memory.wf (c.storeRecord a bs).mem = true :=
  foldl_mem_wf _ (fun _ _ h => flashStore_wf h _ _ _ _) _ h

theorem finishFlash_wf (h : Memory.wf c.mem = true) : Memory.wf c.finishFlash.mem = true := by
  unfold Chip.finishFlash
  split
  · exact h
  · dsimp only; exact flashStore_wf h _ _ _ _
  · dsimp only; exact blank_wf h _ _

/-! What a store of several bytes leaves. -/

/-- Bytes outside a store stay. -/
theorem byte_setBytesNat_out (n : Nat) : ∀ {c : Chip} (a v b : Nat), Memory.wf c.mem = true →
    b < a ∨ a + n ≤ b → (c.setBytesNat a v n).byte b = c.byte b := by
  induction n with
  | zero => exact fun _ _ _ _ _ => rfl
  | succ n ih =>
    intro c a v b h hb
    rw [Chip.setBytesNat, ih _ _ _ (setByte_wf h _ _) (by omega), byte_setByte h, if_neg (by omega)]

/-- Bytes inside a store are the number's, little-endian. -/
theorem byte_setBytesNat_in (n : Nat) : ∀ {c : Chip} (a v i : Nat), Memory.wf c.mem = true → i < n →
    (c.setBytesNat a v n).byte (a + i) = BitVec.ofNat 8 (v / 256 ^ i) := by
  induction n with
  | zero => exact fun _ _ _ _ h => absurd h (by omega)
  | succ n ih =>
    intro c a v i h hi
    rw [Chip.setBytesNat]
    cases i with
    | zero => rw [byte_setBytesNat_out n _ _ _ (setByte_wf h _ _) (by omega), byte_setByte h]; simp
    | succ i =>
      have := ih (a + 1) (v / 256) i (setByte_wf (c := c) h a (BitVec.ofNat 8 v)) (by omega)
      rw [show a + (i + 1) = a + 1 + i by omega, this, Nat.div_div_eq_div_mul, Nat.pow_succ', Nat.mul_comm]

/-- A store with good parity leaves the same bytes. -/
theorem byte_putBytes (n : Nat) : ∀ {c : Chip} (a v b : Nat), (c.putBytes a v n).byte b = (c.setBytesNat a v n).byte b := by
  suffices h : ∀ (n : Nat) (c d : Chip) (a v : Nat), c.mem = d.mem →
      (c.putBytes a v n).mem = (d.setBytesNat a v n).mem by
    intro c a v b
    rw [Chip.byte, Chip.byte, h n c c a v rfl]
  intro n
  induction n with
  | zero => exact fun _ _ _ _ h => h
  | succ n ih =>
    intro c d a v h
    refine ih _ _ _ _ ?_
    show tput memInit c.mem _ _ = tput memInit d.mem _ _
    rw [h]

end Sys2Proof.Machine
end

