-- ==== Sys2Proof/Laws/PerInstr.lean ====
section
/-! SUPPORT. Per command: where its word lies. No instruction of chapter 13 is encoded in a reserved major opcode, erased
flash (major 0x3F) among them, so no reserved word is any instruction's (Table 13.4). -/

namespace Sys2Proof.Laws

/-- A number below the first reserved major opcode is a word below it. -/
theorem major_lt {n : Nat} (h : n < 44 * 2 ^ 26) : (BitVec.ofNat 32 n).toNat < 44 * 2 ^ 26 := by
  rw [BitVec.toNat_ofNat]
  exact Nat.lt_of_le_of_lt (Nat.mod_le _ _) h

theorem guard_lt (g : Guard) : g.bits < 16 := by
  cases g with
  | always => decide
  | when p b => have := p.isLt; cases b <;> simp [Guard.bits] <;> omega

theorem bit01_le (b : Bool) : bit01 b ≤ 1 := by cases b <;> decide

theorem cond_lt (c : Cond) : c.code < 6 := by cases c <;> decide

theorem size_lt (z : Size) : z.code < 3 := by cases z <;> decide

theorem encA_lt {major sh func : Nat} {rd ra rb : Fin 16} {g : Guard} (hm : major < 44) (hs : sh < 64) (hf : func < 16) :
    (encA major rd ra rb sh func g).toNat < 44 * 2 ^ 26 := by
  refine major_lt ?_
  have := guard_lt g; have := rd.isLt; have := ra.isLt; have := rb.isLt
  omega

theorem encI_lt {major imm : Nat} {rd ra : Fin 16} {g : Guard} (hm : major < 44) (hi : imm < 2 ^ 14) :
    (encI major rd ra imm g).toNat < 44 * 2 ^ 26 := by
  refine major_lt ?_
  have := guard_lt g; have := rd.isLt; have := ra.isLt
  omega

theorem encPL_lt {op : Nat} {pd ps pt : Fin 4} {g : Guard} (ho : op < 4) :
    (encPL op pd ps pt g).toNat < 44 * 2 ^ 26 := by
  refine major_lt ?_
  have := guard_lt g; have := pd.isLt; have := ps.isLt; have := pt.isLt
  omega

theorem encB_lt (c : BCond) (off : BitVec 15) : (encB c off).toNat < 44 * 2 ^ 26 := by
  have := off.isLt
  cases c with
  | cmp c ra rb => refine major_lt ?_; have := cond_lt c; have := ra.isLt; have := rb.isLt; omega
  | bp p => refine major_lt ?_; have := p.isLt; omega
  | bnp p => refine major_lt ?_; have := p.isLt; omega

theorem encY_lt {rd ra cn imm func : Nat} (h1 : rd < 16) (h2 : ra < 16) (h3 : cn < 16) (h4 : imm < 2 ^ 10)
    (h5 : func < 16) : (encY rd ra cn imm func).toNat < 44 * 2 ^ 26 := by
  refine major_lt ?_; omega

theorem encM_lt {major r sz : Nat} {a : LAddr} {g : Guard} (hm : major < 43) (hr : r < 16) (hs : sz < 4) :
    (encM major r a sz g).toNat < 44 * 2 ^ 26 := by
  refine major_lt ?_
  have := guard_lt g; have := a.ga.isLt; have := a.off.isLt; have := bit01_le a.l
  omega

theorem encX_lt {ra rb sh func : Nat} {ad : Fin 4} {g : Guard} (h1 : ra < 16) (h2 : rb < 16) (h3 : sh < 64)
    (h4 : func < 64) : (encX ad ra rb sh func g).toNat < 44 * 2 ^ 26 := by
  refine major_lt ?_
  have := guard_lt g; have := ad.isLt
  omega

theorem encW_lt {major : Nat} {v : Fin 8} {a : LAddr} {sz : Size} {sgn m : Bool} {st : Fin 6} (hm : major < 43) :
    (encW major v a sz sgn m st).toNat < 44 * 2 ^ 26 := by
  refine major_lt ?_
  have := v.isLt; have := a.ga.isLt; have := a.off.isLt; have := size_lt sz; have := st.isLt
  have := bit01_le a.l; have := bit01_le sgn; have := bit01_le m
  omega

theorem encV_lt {vd va vb sh func : Nat} {s m : Bool} (h1 : vd < 8) (h2 : va < 8) (h3 : vb < 16) (h4 : sh < 64)
    (h5 : func < 64) : (encV vd va vb s m sh func).toNat < 44 * 2 ^ 26 := by
  refine major_lt ?_
  have := bit01_le s; have := bit01_le m
  omega

theorem encVb_lt {vd va sh func : Nat} {b : VOperand} {m : Bool} (h1 : vd < 8) (h2 : va < 8) (h4 : sh < 64)
    (h5 : func < 64) : (encVb vd va b m sh func).toNat < 44 * 2 ^ 26 := by
  cases b with
  | vec v => exact encV_lt h1 h2 (by omega) h4 h5
  | reg g => exact encV_lt h1 h2 g.isLt h4 h5

theorem encK_lt {op : Nat} {a : LAddr} (h : op < 7) : (encK op a).toNat < 44 * 2 ^ 26 := by
  refine major_lt ?_
  have := a.ga.isLt; have := a.off.isLt; have := bit01_le a.l
  omega

namespace F

/-- The word of an instruction, where it has one, lies below the reserved major opcodes. -/
def Statement (i : Instr) : Prop := ∀ e w, zisEncode i = some (e, w) → w.toNat < 44 * 2 ^ 26

/-- A command that is no instruction of chapter 13 has no word. -/
theorem none_of {i : Instr} (h : zisEncode i = none) : Statement i := fun e w hw => by rw [h] at hw; cases hw

/-- The word of an instruction that has one. -/
theorem some_of {i : Instr} {e : Engine} {w : Word} (h : zisEncode i = some (e, w)) (hw : w.toNat < 44 * 2 ^ 26) :
    Statement i := fun e' w' h' => by rw [h] at h'; cases h'; exact hw

theorem registerWrite (m : Master) (addr : Nat) (size : Nat) (v : Word) : Statement (.registerWrite m addr size v) :=
  none_of rfl

theorem rcRead (m : Master) (addr : Nat) : Statement (.rcRead m addr) := none_of rfl

theorem lowHalfRead (m : Master) (addr : Nat) : Statement (.lowHalfRead m addr) := none_of rfl

theorem crcInit (m : Master) (v : Word) : Statement (.crcInit m v) := none_of rfl

theorem crcData (m : Master) (v : Word) : Statement (.crcData m v) := none_of rfl

theorem crcByte (m : Master) (v : Word) : Statement (.crcByte m v) := none_of rfl

theorem crcStateLoad (m : Master) (v : Word) : Statement (.crcStateLoad m v) := none_of rfl

theorem lock (m : Master) (r : LockReg) (v : Word) : Statement (.lock m r v) := none_of rfl

theorem vertex : Statement .vertex := none_of rfl

theorem uplinkStart : Statement .uplinkStart := none_of rfl

theorem uplinkDeadline : Statement .uplinkDeadline := none_of rfl

theorem chord : Statement .chord := none_of rfl

theorem pllLockLoss : Statement .pllLockLoss := none_of rfl

theorem pllLockHeld : Statement .pllLockHeld := none_of rfl

theorem tsyncEdge : Statement .tsyncEdge := none_of rfl

theorem ppsTimeout : Statement .ppsTimeout := none_of rfl

theorem commit (m : Master) (v : Word) : Statement (.commit m v) := none_of rfl

theorem aonPowerOn (mv : Nat) : Statement (.aonPowerOn mv) := none_of rfl

theorem aonPowerOff (mv : Nat) : Statement (.aonPowerOff mv) := none_of rfl

theorem brownOut (mv : Nat) : Statement (.brownOut mv) := none_of rfl

theorem vinLow (mv : Nat) : Statement (.vinLow mv) := none_of rfl

theorem vinLowRecovery (mv : Nat) : Statement (.vinLowRecovery mv) := none_of rfl

theorem powerFail (mv : Nat) : Statement (.powerFail mv) := none_of rfl

theorem powerFailRecovery (mv : Nat) : Statement (.powerFailRecovery mv) := none_of rfl

theorem vinWarning (low : Bool) (mv : Nat) : Statement (.vinWarning low mv) := none_of rfl

theorem vioGoodChange (good : Bool) : Statement (.vioGoodChange good) := none_of rfl

theorem resetPin : Statement .resetPin := none_of rfl

theorem swrst (m : Master) (v : Word) : Statement (.swrst m v) := none_of rfl

theorem watchdogExpiry : Statement .watchdogExpiry := none_of rfl

theorem wdtkick (m : Master) (v : Word) : Statement (.wdtkick m v) := none_of rfl

theorem drst (m : Master) (v : Word) : Statement (.drst m v) := none_of rfl

theorem pwrctlWrite (m : Master) (v : Word) : Statement (.pwrctlWrite m v) := none_of rfl

theorem domainPowered (d : Domain) : Statement (.domainPowered d) := none_of rfl

theorem fuseLoadDone (differ : Bool) : Statement (.fuseLoadDone differ) := none_of rfl

theorem powerAndLockDone (pllLocked : Bool) : Statement (.powerAndLockDone pllLocked) := none_of rfl

theorem bootRomCheckDone : Statement .bootRomCheckDone := none_of rfl

theorem loaderDone : Statement .loaderDone := none_of rfl

theorem warmRestartDone : Statement .warmRestartDone := none_of rfl

theorem bootdone (m : Master) (v : Word) : Statement (.bootdone m v) := none_of rfl

theorem shipctl (m : Master) (v : Word) : Statement (.shipctl m v) := none_of rfl

theorem wake : Statement .wake := none_of rfl

theorem fltclr (m : Master) (v : Word) : Statement (.fltclr m v) := none_of rfl

theorem hubEnable (m : Master) (v : Word) : Statement (.hubEnable m v) := none_of rfl

theorem uplinkFrameArrival (c : Fin 8) (e : ChainEnd) (bytes : List Byte) : Statement (.uplinkFrameArrival c e bytes) :=
  none_of rfl

theorem receiverLockChange (c : Fin 8) (e : ChainEnd) (locked : Bool) : Statement (.receiverLockChange c e locked) :=
  none_of rfl

theorem markArrival (c : Fin 8) (ui : Nat) : Statement (.markArrival c ui) := none_of rfl

theorem rngerr (c : Fin 8) : Statement (.rngerr c) := none_of rfl

theorem mailboxGo (m : Master) (v : Word) : Statement (.mailboxGo m v) := none_of rfl

theorem slotcfgWrite (m : Master) (k : Fin 128) (v : Word) : Statement (.slotcfgWrite m k v) := none_of rfl

theorem chctlWrite (m : Master) (c : Fin 8) (v : Word) : Statement (.chctlWrite m c v) := none_of rfl

theorem unfold (m : Master) (c : Fin 8) (v : Word) : Statement (.unfold m c v) := none_of rfl

theorem forcedFold (m : Master) (c : Fin 8) (v : Word) : Statement (.forcedFold m c v) := none_of rfl

theorem holdreqWrite (m : Master) (v : Word) : Statement (.holdreqWrite m v) := none_of rfl

theorem loopEnable (m : Master) (n : Fin 4) (v : Word) : Statement (.loopEnable m n v) := none_of rfl

theorem loopDisable (m : Master) (n : Fin 4) (v : Word) : Statement (.loopDisable m n v) := none_of rfl

theorem lncfgWrite (m : Master) (n : Fin 4) (v : Word) : Statement (.lncfgWrite m n v) := none_of rfl

theorem coefficientCommit (m : Master) (v : Word) : Statement (.coefficientCommit m v) := none_of rfl

theorem injectionStart (m : Master) (v : Word) : Statement (.injectionStart m v) := none_of rfl

theorem injectionStop (m : Master) (v : Word) : Statement (.injectionStop m v) := none_of rfl

theorem captureStart (m : Master) (v : Word) : Statement (.captureStart m v) := none_of rfl

theorem swap (m : Master) (v : Word) : Statement (.swap m v) := none_of rfl

theorem resume (m : Master) (v : Word) : Statement (.resume m v) := none_of rfl

theorem arm (m : Master) (t : Fin 2) (v : Word) : Statement (.arm m t v) := none_of rfl

theorem loadCheckDone (t : Fin 2) : Statement (.loadCheckDone t) := none_of rfl

theorem mirrorCheckDone : Statement .mirrorCheckDone := none_of rfl

theorem tileSelfDiagnosisFailure (t : Fin 2) (cause : Fin 8) : Statement (.tileSelfDiagnosisFailure t cause) :=
  none_of rfl

theorem tileWatchdog (t : Fin 2) : Statement (.tileWatchdog t) := none_of rfl

theorem canaryComplete (ticks : Nat) : Statement (.canaryComplete ticks) := none_of rfl

theorem evaluationWindowEnd : Statement .evaluationWindowEnd := none_of rfl

theorem vcoreSettled : Statement .vcoreSettled := none_of rfl

theorem inhibitExpiry : Statement .inhibitExpiry := none_of rfl

theorem dseedWrite (m : Master) (v : Word) : Statement (.dseedWrite m v) := none_of rfl

theorem dtotWrite (m : Master) (n : Fin 4) (v : Word) : Statement (.dtotWrite m n v) := none_of rfl

theorem rotationDue : Statement .rotationDue := none_of rfl

theorem shdlyExpiry (n : Fin 4) : Statement (.shdlyExpiry n) := none_of rfl

theorem qAdjustCommit (m : Master) (v : Word) : Statement (.qAdjustCommit m v) := none_of rfl

theorem evraise (m : Master) (v : Word) : Statement (.evraise m v) := none_of rfl

theorem fechipWrite (m : Master) (v : Word) : Statement (.fechipWrite m v) := none_of rfl

theorem backEndChipUpdate : Statement .backEndChipUpdate := none_of rfl

theorem exttWrite (m : Master) (k : Fin 128) (v : Word) : Statement (.exttWrite m k v) := none_of rfl

theorem exttValidExpiry (k : Fin 128) : Statement (.exttValidExpiry k) := none_of rfl

theorem brokenReadmit (m : Master) (i : Fin 4) (v : Word) : Statement (.brokenReadmit m i v) := none_of rfl

theorem plimWrite (m : Master) (p : Fin 4) (v : Word) : Statement (.plimWrite m p v) := none_of rfl

theorem dieConversion (s0 s1 : Int) : Statement (.dieConversion s0 s1) := none_of rfl

theorem rorWindowEnd : Statement .rorWindowEnd := none_of rfl

theorem runstart (m : Master) (v : Word) : Statement (.runstart m v) := none_of rfl

theorem runshut (m : Master) (v : Word) : Statement (.runshut m v) := none_of rfl

theorem stop (m : Master) (v : Word) : Statement (.stop m v) := none_of rfl

theorem railcmd (m : Master) (v : Word) : Statement (.railcmd m v) := none_of rfl

theorem railclr (m : Master) (v : Word) : Statement (.railclr m v) := none_of rfl

theorem syncset (m : Master) (v : Word) : Statement (.syncset m v) := none_of rfl

theorem stepMemoryWrite (m : Master) (i : Fin 512) (v : Word) : Statement (.stepMemoryWrite m i v) := none_of rfl

theorem seqctlWrite (m : Master) (v : Word) : Statement (.seqctlWrite m v) := none_of rfl

theorem pgQualified (r : Fin 16) : Statement (.pgQualified r) := none_of rfl

theorem riseWindowExpiry (r : Fin 16) : Statement (.riseWindowExpiry r) := none_of rfl

theorem faultTimerEnd (r : Fin 16) : Statement (.faultTimerEnd r) := none_of rfl

theorem retryoffExpiry (r : Fin 16) : Statement (.retryoffExpiry r) := none_of rfl

theorem discharged (r : Fin 16) : Statement (.discharged r) := none_of rfl

theorem dchtmoExpiry (r : Fin 16) : Statement (.dchtmoExpiry r) := none_of rfl

theorem syncRise : Statement .syncRise := none_of rfl

theorem syncTimeout : Statement .syncTimeout := none_of rfl

theorem checkTimeout : Statement .checkTimeout := none_of rfl

theorem waitExpiry : Statement .waitExpiry := none_of rfl

theorem auxiliaryLost : Statement .auxiliaryLost := none_of rfl

theorem auxiliaryGood : Statement .auxiliaryGood := none_of rfl

theorem auxiliaryStale : Statement .auxiliaryStale := none_of rfl

theorem seqEn : Statement .seqEn := none_of rfl

theorem seqWait : Statement .seqWait := none_of rfl

theorem seqCheck : Statement .seqCheck := none_of rfl

theorem seqJump : Statement .seqJump := none_of rfl

theorem seqSync : Statement .seqSync := none_of rfl

theorem seqEnd : Statement .seqEnd := none_of rfl

theorem add (e : Engine) (g : Guard) (rd ra rb : Fin 16) : Statement (.add e g rd ra rb) :=
  some_of rfl (encA_lt (by omega) (by omega) (by omega))

theorem sub (e : Engine) (g : Guard) (rd ra rb : Fin 16) : Statement (.sub e g rd ra rb) :=
  some_of rfl (encA_lt (by omega) (by omega) (by omega))

theorem and (e : Engine) (g : Guard) (rd ra rb : Fin 16) : Statement (.and e g rd ra rb) :=
  some_of rfl (encA_lt (by omega) (by omega) (by omega))

theorem or (e : Engine) (g : Guard) (rd ra rb : Fin 16) : Statement (.or e g rd ra rb) :=
  some_of rfl (encA_lt (by omega) (by omega) (by omega))

theorem xor (e : Engine) (g : Guard) (rd ra rb : Fin 16) : Statement (.xor e g rd ra rb) :=
  some_of rfl (encA_lt (by omega) (by omega) (by omega))

theorem shl (e : Engine) (g : Guard) (rd ra rb : Fin 16) : Statement (.shl e g rd ra rb) :=
  some_of rfl (encA_lt (by omega) (by omega) (by omega))

theorem shr (e : Engine) (g : Guard) (rd ra rb : Fin 16) : Statement (.shr e g rd ra rb) :=
  some_of rfl (encA_lt (by omega) (by omega) (by omega))

theorem sra (e : Engine) (g : Guard) (rd ra rb : Fin 16) : Statement (.sra e g rd ra rb) :=
  some_of rfl (encA_lt (by omega) (by omega) (by omega))

theorem min (e : Engine) (g : Guard) (rd ra rb : Fin 16) : Statement (.min e g rd ra rb) :=
  some_of rfl (encA_lt (by omega) (by omega) (by omega))

theorem max (e : Engine) (g : Guard) (rd ra rb : Fin 16) : Statement (.max e g rd ra rb) :=
  some_of rfl (encA_lt (by omega) (by omega) (by omega))

theorem minu (e : Engine) (g : Guard) (rd ra rb : Fin 16) : Statement (.minu e g rd ra rb) :=
  some_of rfl (encA_lt (by omega) (by omega) (by omega))

theorem maxu (e : Engine) (g : Guard) (rd ra rb : Fin 16) : Statement (.maxu e g rd ra rb) :=
  some_of rfl (encA_lt (by omega) (by omega) (by omega))

theorem mul (e : Engine) (g : Guard) (rd ra rb : Fin 16) : Statement (.mul e g rd ra rb) :=
  some_of rfl (encA_lt (by omega) (by omega) (by omega))

theorem mulh (e : Engine) (g : Guard) (rd ra rb : Fin 16) : Statement (.mulh e g rd ra rb) :=
  some_of rfl (encA_lt (by omega) (by omega) (by omega))

theorem mulhu (e : Engine) (g : Guard) (rd ra rb : Fin 16) : Statement (.mulhu e g rd ra rb) :=
  some_of rfl (encA_lt (by omega) (by omega) (by omega))

theorem div (e : Engine) (g : Guard) (rd ra rb : Fin 16) : Statement (.div e g rd ra rb) :=
  some_of rfl (encA_lt (by omega) (by omega) (by omega))

theorem divu (e : Engine) (g : Guard) (rd ra rb : Fin 16) : Statement (.divu e g rd ra rb) :=
  some_of rfl (encA_lt (by omega) (by omega) (by omega))

theorem rem (e : Engine) (g : Guard) (rd ra rb : Fin 16) : Statement (.rem e g rd ra rb) :=
  some_of rfl (encA_lt (by omega) (by omega) (by omega))

theorem remu (e : Engine) (g : Guard) (rd ra rb : Fin 16) : Statement (.remu e g rd ra rb) :=
  some_of rfl (encA_lt (by omega) (by omega) (by omega))

theorem qadd (e : Engine) (g : Guard) (rd ra rb : Fin 16) : Statement (.qadd e g rd ra rb) :=
  some_of rfl (encA_lt (by omega) (by omega) (by omega))

theorem qsub (e : Engine) (g : Guard) (rd ra rb : Fin 16) : Statement (.qsub e g rd ra rb) :=
  some_of rfl (encA_lt (by omega) (by omega) (by omega))

theorem qmul (e : Engine) (g : Guard) (rd ra rb : Fin 16) (sh : BitVec 6) : Statement (.qmul e g rd ra rb sh) :=
  some_of rfl (encA_lt (by omega) (by omega) (by omega))

theorem qabs (e : Engine) (g : Guard) (rd ra : Fin 16) : Statement (.qabs e g rd ra) :=
  some_of rfl (encA_lt (by omega) (by omega) (by omega))

theorem qneg (e : Engine) (g : Guard) (rd ra : Fin 16) : Statement (.qneg e g rd ra) :=
  some_of rfl (encA_lt (by omega) (by omega) (by omega))

theorem addi (e : Engine) (g : Guard) (rd ra : Fin 16) (imm : BitVec 14) : Statement (.addi e g rd ra imm) :=
  some_of rfl (encI_lt (by omega) (by omega))

theorem andi (e : Engine) (g : Guard) (rd ra : Fin 16) (imm : BitVec 14) : Statement (.andi e g rd ra imm) :=
  some_of rfl (encI_lt (by omega) (by omega))

theorem ori (e : Engine) (g : Guard) (rd ra : Fin 16) (imm : BitVec 14) : Statement (.ori e g rd ra imm) :=
  some_of rfl (encI_lt (by omega) (by omega))

theorem xori (e : Engine) (g : Guard) (rd ra : Fin 16) (imm : BitVec 14) : Statement (.xori e g rd ra imm) :=
  some_of rfl (encI_lt (by omega) (by omega))

theorem shli (e : Engine) (g : Guard) (rd ra : Fin 16) (sh : BitVec 5) : Statement (.shli e g rd ra sh) :=
  some_of rfl (encI_lt (by omega) (by omega))

theorem shri (e : Engine) (g : Guard) (rd ra : Fin 16) (sh : BitVec 5) : Statement (.shri e g rd ra sh) :=
  some_of rfl (encI_lt (by omega) (by omega))

theorem srai (e : Engine) (g : Guard) (rd ra : Fin 16) (sh : BitVec 5) : Statement (.srai e g rd ra sh) :=
  some_of rfl (encI_lt (by omega) (by omega))

theorem mini (e : Engine) (g : Guard) (rd ra : Fin 16) (imm : BitVec 14) : Statement (.mini e g rd ra imm) :=
  some_of rfl (encI_lt (by omega) (by omega))

theorem maxi (e : Engine) (g : Guard) (rd ra : Fin 16) (imm : BitVec 14) : Statement (.maxi e g rd ra imm) :=
  some_of rfl (encI_lt (by omega) (by omega))

theorem lui (e : Engine) (g : Guard) (rd : Fin 16) (imm : BitVec 18) : Statement (.lui e g rd imm) :=
  some_of rfl (major_lt (by have := guard_lt g; have := rd.isLt; have := imm.isLt; omega))

theorem cmp (e : Engine) (g : Guard) (c : Cond) (pd : Fin 4) (ra rb : Fin 16) : Statement (.cmp e g c pd ra rb) :=
  some_of rfl (major_lt (by have := guard_lt g; have := pd.isLt; have := ra.isLt; have := rb.isLt; have := cond_lt c; omega))

theorem cmpi (e : Engine) (g : Guard) (c : Cond) (pd : Fin 4) (ra : Fin 16) (imm : BitVec 13) : Statement (.cmpi e g c pd ra imm) :=
  some_of rfl (major_lt (by have := guard_lt g; have := pd.isLt; have := ra.isLt; have := imm.isLt; have := cond_lt c; omega))

theorem pand (e : Engine) (g : Guard) (pd ps pt : Fin 4) : Statement (.pand e g pd ps pt) :=
  some_of rfl (encPL_lt (by omega))

theorem por (e : Engine) (g : Guard) (pd ps pt : Fin 4) : Statement (.por e g pd ps pt) :=
  some_of rfl (encPL_lt (by omega))

theorem pxor (e : Engine) (g : Guard) (pd ps pt : Fin 4) : Statement (.pxor e g pd ps pt) :=
  some_of rfl (encPL_lt (by omega))

theorem pandn (e : Engine) (g : Guard) (pd ps pt : Fin 4) : Statement (.pandn e g pd ps pt) :=
  some_of rfl (encPL_lt (by omega))

theorem ldw (n : Fin 8) (g : Guard) (rd ra : Fin 16) (imm : BitVec 14) : Statement (.ldw n g rd ra imm) :=
  some_of rfl (encI_lt (by omega) (by omega))

theorem ldh (n : Fin 8) (g : Guard) (rd ra : Fin 16) (imm : BitVec 14) : Statement (.ldh n g rd ra imm) :=
  some_of rfl (encI_lt (by omega) (by omega))

theorem ldhu (n : Fin 8) (g : Guard) (rd ra : Fin 16) (imm : BitVec 14) : Statement (.ldhu n g rd ra imm) :=
  some_of rfl (encI_lt (by omega) (by omega))

theorem ldb (n : Fin 8) (g : Guard) (rd ra : Fin 16) (imm : BitVec 14) : Statement (.ldb n g rd ra imm) :=
  some_of rfl (encI_lt (by omega) (by omega))

theorem ldbu (n : Fin 8) (g : Guard) (rd ra : Fin 16) (imm : BitVec 14) : Statement (.ldbu n g rd ra imm) :=
  some_of rfl (encI_lt (by omega) (by omega))

theorem stw (n : Fin 8) (g : Guard) (rs ra : Fin 16) (imm : BitVec 14) : Statement (.stw n g rs ra imm) :=
  some_of rfl (encI_lt (by omega) (by omega))

theorem sth (n : Fin 8) (g : Guard) (rs ra : Fin 16) (imm : BitVec 14) : Statement (.sth n g rs ra imm) :=
  some_of rfl (encI_lt (by omega) (by omega))

theorem stb (n : Fin 8) (g : Guard) (rs ra : Fin 16) (imm : BitVec 14) : Statement (.stb n g rs ra imm) :=
  some_of rfl (encI_lt (by omega) (by omega))

theorem swapw (n : Fin 8) (g : Guard) (rd ra rb : Fin 16) : Statement (.swapw n g rd ra rb) :=
  some_of rfl (encA_lt (by omega) (by omega) (by omega))

theorem casw (n : Fin 8) (g : Guard) (rd ra rb : Fin 16) : Statement (.casw n g rd ra rb) :=
  some_of rfl (encA_lt (by omega) (by omega) (by omega))

theorem b (n : Fin 8) (c : BCond) (off : BitVec 15) : Statement (.b n c off) := some_of rfl (encB_lt _ _)

theorem jal (n : Fin 8) (off : BitVec 26) : Statement (.jal n off) :=
  some_of rfl (major_lt (by have := off.isLt; omega))

theorem jalr (n : Fin 8) (rd ra : Fin 16) (imm : BitVec 14) : Statement (.jalr n rd ra imm) :=
  some_of rfl (encI_lt (by omega) (by omega))

theorem sysc (n : Fin 8) (imm : BitVec 10) : Statement (.sysc n imm) :=
  some_of rfl (encY_lt (by omega) (by omega) (by omega) (by omega) (by omega))

theorem brk (n : Fin 8) (imm : BitVec 10) : Statement (.brk n imm) :=
  some_of rfl (encY_lt (by omega) (by omega) (by omega) (by omega) (by omega))

theorem eret (n : Fin 8) : Statement (.eret n) :=
  some_of rfl (encY_lt (by omega) (by omega) (by omega) (by omega) (by omega))

theorem crd (n : Fin 8) (rd cn : Fin 16) : Statement (.crd n rd cn) :=
  some_of rfl (encY_lt (by omega) (by omega) (by omega) (by omega) (by omega))

theorem cwr (n : Fin 8) (cn ra : Fin 16) : Statement (.cwr n cn ra) :=
  some_of rfl (encY_lt (by omega) (by omega) (by omega) (by omega) (by omega))

theorem wfe (n : Fin 8) : Statement (.wfe n) :=
  some_of rfl (encY_lt (by omega) (by omega) (by omega) (by omega) (by omega))

theorem yield (n : Fin 8) : Statement (.yield n) :=
  some_of rfl (encY_lt (by omega) (by omega) (by omega) (by omega) (by omega))

theorem fence (n : Fin 8) : Statement (.fence n) :=
  some_of rfl (encY_lt (by omega) (by omega) (by omega) (by omega) (by omega))

theorem ldq (t : Fin 2) (g : Guard) (sz : Size) (rd : Fin 16) (a : LAddr) : Statement (.ldq t g sz rd a) :=
  some_of rfl (encM_lt (by omega) (by omega) (Nat.lt_succ_of_lt (size_lt sz)))

theorem ldqU (t : Fin 2) (g : Guard) (sz : Size) (rd : Fin 16) (a : LAddr) : Statement (.ldqU t g sz rd a) :=
  some_of rfl (encM_lt (by omega) (by omega) (Nat.lt_succ_of_lt (size_lt sz)))

theorem ald (t : Fin 2) (g : Guard) (ad : Fin 4) (a : LAddr) : Statement (.ald t g ad a) :=
  some_of rfl (encM_lt (by omega) (by omega) (by omega))

theorem stq (t : Fin 2) (g : Guard) (sz : Size) (rs : Fin 16) (a : LAddr) : Statement (.stq t g sz rs a) :=
  some_of rfl (encM_lt (by omega) (by omega) (Nat.lt_succ_of_lt (size_lt sz)))

theorem ast (t : Fin 2) (g : Guard) (as : Fin 4) (a : LAddr) : Statement (.ast t g as a) :=
  some_of rfl (encM_lt (by omega) (by omega) (by omega))

theorem mac (t : Fin 2) (g : Guard) (ad : Fin 4) (ra rb : Fin 16) (sh : BitVec 6) : Statement (.mac t g ad ra rb sh) :=
  some_of rfl (encX_lt (by omega) (by omega) (by omega) (by omega))

theorem msu (t : Fin 2) (g : Guard) (ad : Fin 4) (ra rb : Fin 16) (sh : BitVec 6) : Statement (.msu t g ad ra rb sh) :=
  some_of rfl (encX_lt (by omega) (by omega) (by omega) (by omega))

theorem macx (t : Fin 2) (g : Guard) (ad : Fin 4) (ra rb gs : Fin 16) : Statement (.macx t g ad ra rb gs) :=
  some_of rfl (encX_lt (by omega) (by omega) (by omega) (by omega))

theorem msux (t : Fin 2) (g : Guard) (ad : Fin 4) (ra rb gs : Fin 16) : Statement (.msux t g ad ra rb gs) :=
  some_of rfl (encX_lt (by omega) (by omega) (by omega) (by omega))

theorem acr (t : Fin 2) (g : Guard) (rd : Fin 16) (ad : Fin 4) (sh : BitVec 6) : Statement (.acr t g rd ad sh) :=
  some_of rfl (encX_lt (by omega) (by omega) (by omega) (by omega))

theorem acw (t : Fin 2) (g : Guard) (ad : Fin 4) (ra : Fin 16) (sh : BitVec 6) : Statement (.acw t g ad ra sh) :=
  some_of rfl (encX_lt (by omega) (by omega) (by omega) (by omega))

theorem acadd (t : Fin 2) (g : Guard) (ad : Fin 4) (ra : Fin 16) (sh : BitVec 6) : Statement (.acadd t g ad ra sh) :=
  some_of rfl (encX_lt (by omega) (by omega) (by omega) (by omega))

theorem acacc (t : Fin 2) (g : Guard) (ad ab : Fin 4) (sh : BitVec 6) : Statement (.acacc t g ad ab sh) :=
  some_of rfl (encX_lt (by omega) (by omega) (by omega) (by omega))

theorem achi (t : Fin 2) (g : Guard) (rd : Fin 16) (ad : Fin 4) : Statement (.achi t g rd ad) :=
  some_of rfl (encX_lt (by omega) (by omega) (by omega) (by omega))

theorem aclo (t : Fin 2) (g : Guard) (rd : Fin 16) (ad : Fin 4) : Statement (.aclo t g rd ad) :=
  some_of rfl (encX_lt (by omega) (by omega) (by omega) (by omega))

theorem acclr (t : Fin 2) (g : Guard) (ad : Fin 4) : Statement (.acclr t g ad) :=
  some_of rfl (encX_lt (by omega) (by omega) (by omega) (by omega))

theorem adiv (t : Fin 2) (g : Guard) (rd : Fin 16) (ad : Fin 4) (rb : Fin 16) : Statement (.adiv t g rd ad rb) :=
  some_of rfl (encX_lt (by omega) (by omega) (by omega) (by omega))

theorem rpt (t : Fin 2) (nm1 : BitVec 8) (lenm1 : BitVec 6) (gi : Fin 16) (inc : BitVec 8) : Statement (.rpt t nm1 lenm1 gi inc) :=
  some_of rfl (major_lt (by have := nm1.isLt; have := lenm1.isLt; have := gi.isLt; have := inc.isLt; omega))

theorem endLoop (t : Fin 2) : Statement (.endLoop t) := some_of rfl (major_lt (by decide))

theorem vrange (t : Fin 2) (g0 nm1 : Fin 16) : Statement (.vrange t g0 nm1) :=
  some_of rfl (major_lt (by have := g0.isLt; have := nm1.isLt; omega))

theorem vld (t : Fin 2) (sz : Size) (sgn : Bool) (m : Bool) (st : Fin 6) (v : Fin 8) (a : LAddr) : Statement (.vld t sz sgn m st v a) :=
  some_of rfl (encW_lt (by omega))

theorem vst (t : Fin 2) (sz : Size) (m : Bool) (st : Fin 6) (v : Fin 8) (a : LAddr) : Statement (.vst t sz m st v a) :=
  some_of rfl (encW_lt (by omega))

theorem vadd (t : Fin 2) (m : Bool) (vd va : Fin 8) (b : VOperand) : Statement (.vadd t m vd va b) :=
  some_of rfl (encVb_lt (by omega) (by omega) (by omega) (by omega))

theorem vsub (t : Fin 2) (m : Bool) (vd va : Fin 8) (b : VOperand) : Statement (.vsub t m vd va b) :=
  some_of rfl (encVb_lt (by omega) (by omega) (by omega) (by omega))

theorem vmul (t : Fin 2) (m : Bool) (vd va : Fin 8) (b : VOperand) (sh : BitVec 6) : Statement (.vmul t m vd va b sh) :=
  some_of rfl (encVb_lt (by omega) (by omega) (by omega) (by omega))

theorem vmin (t : Fin 2) (m : Bool) (vd va : Fin 8) (b : VOperand) : Statement (.vmin t m vd va b) :=
  some_of rfl (encVb_lt (by omega) (by omega) (by omega) (by omega))

theorem vmax (t : Fin 2) (m : Bool) (vd va : Fin 8) (b : VOperand) : Statement (.vmax t m vd va b) :=
  some_of rfl (encVb_lt (by omega) (by omega) (by omega) (by omega))

theorem vand (t : Fin 2) (m : Bool) (vd va : Fin 8) (b : VOperand) : Statement (.vand t m vd va b) :=
  some_of rfl (encVb_lt (by omega) (by omega) (by omega) (by omega))

theorem vor (t : Fin 2) (m : Bool) (vd va : Fin 8) (b : VOperand) : Statement (.vor t m vd va b) :=
  some_of rfl (encVb_lt (by omega) (by omega) (by omega) (by omega))

theorem vxor (t : Fin 2) (m : Bool) (vd va : Fin 8) (b : VOperand) : Statement (.vxor t m vd va b) :=
  some_of rfl (encVb_lt (by omega) (by omega) (by omega) (by omega))

theorem vsh (t : Fin 2) (m : Bool) (vd va : Fin 8) (sh : BitVec 6) : Statement (.vsh t m vd va sh) :=
  some_of rfl (encV_lt (by omega) (by omega) (by omega) (by omega) (by omega))

theorem vmuldiv (t : Fin 2) (m : Bool) (vd va : Fin 8) (gb gc : Fin 16) : Statement (.vmuldiv t m vd va gb gc) :=
  some_of rfl (encV_lt (by omega) (by omega) (by omega) (by omega) (by omega))

theorem vsel (t : Fin 2) (vd va : Fin 8) (b : VOperand) : Statement (.vsel t vd va b) :=
  some_of rfl (encVb_lt (by omega) (by omega) (by omega) (by omega))

theorem vidx (t : Fin 2) (m : Bool) (vd : Fin 8) : Statement (.vidx t m vd) :=
  some_of rfl (encV_lt (by omega) (by omega) (by omega) (by omega) (by omega))

theorem vscan (t : Fin 2) (m : Bool) (vd va : Fin 8) : Statement (.vscan t m vd va) :=
  some_of rfl (encV_lt (by omega) (by omega) (by omega) (by omega) (by omega))

theorem vcmp (t : Fin 2) (c : Cond) (m : Bool) (va : Fin 8) (b : VOperand) : Statement (.vcmp t c m va b) :=
  some_of rfl (encVb_lt (by omega) (by omega) (by omega) (by have := cond_lt c; omega))

theorem vsum (t : Fin 2) (m : Bool) (ad : Fin 4) (va : Fin 8) (sh : BitVec 6) : Statement (.vsum t m ad va sh) :=
  some_of rfl (encV_lt (by omega) (by omega) (by omega) (by omega) (by omega))

theorem vcnt (t : Fin 2) (m : Bool) (ad : Fin 4) : Statement (.vcnt t m ad) :=
  some_of rfl (encV_lt (by omega) (by omega) (by omega) (by omega) (by omega))

theorem vmaxr (t : Fin 2) (m : Bool) (ad : Fin 4) (va : Fin 8) : Statement (.vmaxr t m ad va) :=
  some_of rfl (encV_lt (by omega) (by omega) (by omega) (by omega) (by omega))

theorem vminr (t : Fin 2) (m : Bool) (ad : Fin 4) (va : Fin 8) : Statement (.vminr t m ad va) :=
  some_of rfl (encV_lt (by omega) (by omega) (by omega) (by omega) (by omega))

theorem vget (t : Fin 2) (gb : Fin 16) (va : Fin 8) (gi : Fin 16) : Statement (.vget t gb va gi) :=
  some_of rfl (encV_lt (by omega) (by omega) (by omega) (by omega) (by omega))

theorem vput (t : Fin 2) (vd : Fin 8) (gi gb : Fin 16) : Statement (.vput t vd gi gb) :=
  some_of rfl (encV_lt (by omega) (by omega) (by omega) (by omega) (by omega))

theorem vmld (t : Fin 2) (a : LAddr) : Statement (.vmld t a) := some_of rfl (encK_lt (by omega))

theorem vmst (t : Fin 2) (a : LAddr) : Statement (.vmst t a) := some_of rfl (encK_lt (by omega))

theorem vmand (t : Fin 2) (a : LAddr) : Statement (.vmand t a) := some_of rfl (encK_lt (by omega))

theorem vmor (t : Fin 2) (a : LAddr) : Statement (.vmor t a) := some_of rfl (encK_lt (by omega))

theorem vmnot (t : Fin 2) : Statement (.vmnot t) := some_of rfl (major_lt (by decide))

theorem vmall (t : Fin 2) : Statement (.vmall t) := some_of rfl (major_lt (by decide))

theorem vmnone (t : Fin 2) : Statement (.vmnone t) := some_of rfl (major_lt (by decide))

theorem start (m : Master) (v : Word) : Statement (.start m v) := none_of rfl

theorem strandStop (m : Master) (v : Word) : Statement (.strandStop m v) := none_of rfl

theorem quantumExpiry : Statement .quantumExpiry := none_of rfl

theorem starvationPromotion (n : Fin 8) : Statement (.starvationPromotion n) := none_of rfl

theorem swev (m : Master) (v : Word) : Statement (.swev m v) := none_of rfl

theorem evqpop (m : Master) (v : Word) : Statement (.evqpop m v) := none_of rfl

theorem lostClear (m : Master) (v : Word) : Statement (.lostClear m v) := none_of rfl

theorem inputQualified (i : Fin 32) (level : Bool) (edges : Nat) : Statement (.inputQualified i level edges) :=
  none_of rfl

theorem toggleWindowEnd (i : Fin 32) (edges : Nat) : Statement (.toggleWindowEnd i edges) := none_of rfl

theorem stuckExpiry (i : Fin 32) : Statement (.stuckExpiry i) := none_of rfl

theorem incfgWrite (m : Master) (i : Fin 32) (v : Word) : Statement (.incfgWrite m i v) := none_of rfl

theorem pmonEnable (m : Master) (v : Word) : Statement (.pmonEnable m v) := none_of rfl

theorem pmonClear (m : Master) (v : Word) : Statement (.pmonClear m v) := none_of rfl

theorem cntcfgWrite (m : Master) (n : Fin 8) (v : Word) : Statement (.cntcfgWrite m n v) := none_of rfl

theorem scrubStep : Statement .scrubStep := none_of rfl

theorem retire (m : Master) (i : Fin 8) (v : Word) : Statement (.retire m i v) := none_of rfl

theorem flush (m : Master) (v : Word) : Statement (.flush m v) := none_of rfl

theorem erase (m : Master) (v : Word) : Statement (.erase m v) := none_of rfl

theorem flashOperationDone : Statement .flashOperationDone := none_of rfl

theorem chkctlWrite (m : Master) (v : Word) : Statement (.chkctlWrite m v) := none_of rfl

theorem logpop (m : Master) (v : Word) : Statement (.logpop m v) := none_of rfl

theorem recorderFlushRequest (m : Master) (v : Word) : Statement (.recorderFlushRequest m v) := none_of rfl

theorem flushTimer : Statement .flushTimer := none_of rfl

theorem recordWritten (ok : Bool) : Statement (.recordWritten ok) := none_of rfl

theorem flushDone : Statement .flushDone := none_of rfl

theorem sectorEraseDone : Statement .sectorEraseDone := none_of rfl

theorem recorderStart : Statement .recorderStart := none_of rfl

theorem freezeWrite (m : Master) (v : Word) : Statement (.freezeWrite m v) := none_of rfl

theorem frzmaxExpiry : Statement .frzmaxExpiry := none_of rfl

theorem winRead (m : Master) (view : Fin 2) : Statement (.winRead m view) := none_of rfl

theorem snapshotDone : Statement .snapshotDone := none_of rfl

theorem snapdataRead (m : Master) : Statement (.snapdataRead m) := none_of rfl

theorem conversionComplete (c : Fin 2) (code : BitVec 16) : Statement (.conversionComplete c code) := none_of rfl

theorem referenceSettled : Statement .referenceSettled := none_of rfl

theorem referenceCheck (inRange : Bool) : Statement (.referenceCheck inRange) := none_of rfl

theorem adcrefWrite (m : Master) (v : Word) : Statement (.adcrefWrite m v) := none_of rfl

theorem injreq (m : Master) (v : Word) : Statement (.injreq m v) := none_of rfl

theorem adccal (m : Master) (v : Word) : Statement (.adccal m v) := none_of rfl

theorem calibrationStepDone (c : Fin 2) : Statement (.calibrationStepDone c) := none_of rfl

theorem calibrationDone (c : Fin 2) (offset gain : BitVec 16) : Statement (.calibrationDone c offset gain) :=
  none_of rfl

theorem regularPassStart (c : Fin 2) : Statement (.regularPassStart c) := none_of rfl

theorem rseqWrite (m : Master) (c : Fin 2) (w : Fin 5) (v : Word) : Statement (.rseqWrite m c w v) := none_of rfl

theorem connect (m : Master) (v : Word) : Statement (.connect m v) := none_of rfl

theorem disconnect (m : Master) (v : Word) : Statement (.disconnect m v) := none_of rfl

theorem leaktElapsed : Statement .leaktElapsed := none_of rfl

theorem pretmoElapsed : Statement .pretmoElapsed := none_of rfl

theorem pretElapsed : Statement .pretElapsed := none_of rfl

theorem ramptElapsed : Statement .ramptElapsed := none_of rfl

theorem ramptmoElapsed : Statement .ramptmoElapsed := none_of rfl

theorem confbChange (i : Fin 2) (closed : Bool) : Statement (.confbChange i closed) := none_of rfl

theorem condlyElapsed : Statement .condlyElapsed := none_of rfl

theorem contElapsed (i : Fin 2) : Statement (.contElapsed i) := none_of rfl

theorem comparatorQualified (n : Fin 8) (outside : Bool) : Statement (.comparatorQualified n outside) := none_of rfl

theorem extTrip : Statement .extTrip := none_of rfl

theorem gateFlt (low : Bool) : Statement (.gateFlt low) := none_of rfl

theorem senseTimeout : Statement .senseTimeout := none_of rfl

theorem causeclr (m : Master) (v : Word) : Statement (.causeclr m v) := none_of rfl

theorem cmpConfigWrite (m : Master) (n : Fin 8) (w : CmpWord) (v : Word) : Statement (.cmpConfigWrite m n w v) :=
  none_of rfl

theorem limitWrite (m : Master) (r : LimitReg) (v : Word) : Statement (.limitWrite m r v) := none_of rfl

theorem eldcmt (m : Master) (v : Word) : Statement (.eldcmt m v) := none_of rfl

theorem transactionAbandoned : Statement .transactionAbandoned := none_of rfl

theorem nop (f : SplFields) : Statement (.nop f) := none_of rfl

theorem goal (f : SplFields) : Statement (.goal f) := none_of rfl

theorem notrd (f : SplFields) : Statement (.notrd f) := none_of rfl

theorem measrd (f : SplFields) : Statement (.measrd f) := none_of rfl

theorem sync (f : SplFields) : Statement (.sync f) := none_of rfl

theorem spalertPulse : Statement .spalertPulse := none_of rfl

theorem nqclr (m : Master) (v : Word) : Statement (.nqclr m v) := none_of rfl

theorem splEnable (m : Master) (v : Word) : Statement (.splEnable m v) := none_of rfl

theorem page (x : Xfer) : Statement (.page x) := none_of rfl

theorem operation (x : Xfer) : Statement (.operation x) := none_of rfl

theorem clearFaults (x : Xfer) : Statement (.clearFaults x) := none_of rfl

theorem writeProtect (x : Xfer) : Statement (.writeProtect x) := none_of rfl

theorem capability (x : Xfer) : Statement (.capability x) := none_of rfl

theorem voutMode (x : Xfer) : Statement (.voutMode x) := none_of rfl

theorem voutCommand (x : Xfer) : Statement (.voutCommand x) := none_of rfl

theorem statusByte (x : Xfer) : Statement (.statusByte x) := none_of rfl

theorem statusWord (x : Xfer) : Statement (.statusWord x) := none_of rfl

theorem statusCml (x : Xfer) : Statement (.statusCml x) := none_of rfl

theorem statusMfrSpecific (x : Xfer) : Statement (.statusMfrSpecific x) := none_of rfl

theorem readVin (x : Xfer) : Statement (.readVin x) := none_of rfl

theorem readVout (x : Xfer) : Statement (.readVout x) := none_of rfl

theorem readIout (x : Xfer) : Statement (.readIout x) := none_of rfl

theorem readTemperature1 (x : Xfer) : Statement (.readTemperature1 x) := none_of rfl

theorem readPout (x : Xfer) : Statement (.readPout x) := none_of rfl

theorem pmbusRevision (x : Xfer) : Statement (.pmbusRevision x) := none_of rfl

theorem mfrId (x : Xfer) : Statement (.mfrId x) := none_of rfl

theorem mfrModel (x : Xfer) : Statement (.mfrModel x) := none_of rfl

theorem mfrRevision (x : Xfer) : Statement (.mfrRevision x) := none_of rfl

theorem mfrWinAddr (x : Xfer) : Statement (.mfrWinAddr x) := none_of rfl

theorem mfrWinData (x : Xfer) : Statement (.mfrWinData x) := none_of rfl

theorem mfrRecCursor (x : Xfer) : Statement (.mfrRecCursor x) := none_of rfl

theorem mfrRecRead (x : Xfer) : Statement (.mfrRecRead x) := none_of rfl

theorem mfrRecFreeze (x : Xfer) : Statement (.mfrRecFreeze x) := none_of rfl

theorem mfrUpdCtrl (x : Xfer) : Statement (.mfrUpdCtrl x) := none_of rfl

theorem mfrUpdData (x : Xfer) : Statement (.mfrUpdData x) := none_of rfl

theorem mfrAlertEvents (x : Xfer) : Statement (.mfrAlertEvents x) := none_of rfl

theorem mfrReqEvents (x : Xfer) : Statement (.mfrReqEvents x) := none_of rfl

theorem mfrEvseq (x : Xfer) : Statement (.mfrEvseq x) := none_of rfl

theorem alertResponse (won : Bool) (raisedMeanwhile : Bool) : Statement (.alertResponse won raisedMeanwhile) :=
  none_of rfl

theorem requestResponse (won : Bool) (raisedMeanwhile : Bool) : Statement (.requestResponse won raisedMeanwhile) :=
  none_of rfl

theorem sleep : Statement .sleep := none_of rfl

theorem sclTimeout : Statement .sclTimeout := none_of rfl

theorem sdaTimeout : Statement .sdaTimeout := none_of rfl

theorem inBandRequestPulse (collides : Bool) : Statement (.inBandRequestPulse collides) := none_of rfl

theorem hcmdpop (m : Master) (v : Word) : Statement (.hcmdpop m v) := none_of rfl

theorem tlmrdy (m : Master) (v : Word) : Statement (.tlmrdy m v) := none_of rfl

theorem controllerGo (m : Master) (v : Word) (a : Attempt) : Statement (.controllerGo m v a) := none_of rfl

theorem backoffExpiry (a : Attempt) : Statement (.backoffExpiry a) := none_of rfl

theorem controllerDone (nacked : Bool) : Statement (.controllerDone nacked) := none_of rfl

theorem localTransferGo (m : Master) (v : Word) (sda : LocalSda) : Statement (.localTransferGo m v sda) := none_of rfl

theorem localTransferDone (nacked : Bool) (bytes : List Byte) (pec : Byte) : Statement (.localTransferDone nacked bytes pec) :=
  none_of rfl

theorem localSclTimeout : Statement .localSclTimeout := none_of rfl

theorem begin (m : Master) (v : Word) : Statement (.begin m v) := none_of rfl

theorem activate (m : Master) (v : Word) : Statement (.activate m v) := none_of rfl

theorem abort (m : Master) (v : Word) : Statement (.abort m v) := none_of rfl

theorem plansgo (m : Master) (v : Word) : Statement (.plansgo m v) := none_of rfl

theorem confirm (m : Master) (v : Word) : Statement (.confirm m v) := none_of rfl

theorem rcvreq (m : Master) (v : Word) : Statement (.rcvreq m v) := none_of rfl

theorem migdone (m : Master) (v : Word) : Statement (.migdone m v) := none_of rfl

theorem trialarm (m : Master) (v : Word) : Statement (.trialarm m v) := none_of rfl

theorem upddataWrite (m : Master) (v : Word) : Statement (.upddataWrite m v) := none_of rfl

theorem headerTestDone : Statement .headerTestDone := none_of rfl

theorem updateEraseDone : Statement .updateEraseDone := none_of rfl

theorem endCheckDone : Statement .endCheckDone := none_of rfl

theorem updtimeExpiry : Statement .updtimeExpiry := none_of rfl

theorem trialExpiry : Statement .trialExpiry := none_of rfl

theorem socmeanStale : Statement .socmeanStale := none_of rfl

theorem prog (m : Master) (v : Word) : Statement (.prog m v) := none_of rfl

theorem fuseProgramDone (unblown : Word) : Statement (.fuseProgramDone unblown) := none_of rfl

theorem vinLowRising (mv : Nat) : Statement (.vinLowRising mv) := none_of rfl

theorem resetRelease : Statement .resetRelease := none_of rfl

theorem downlinkEndBArrival (c : Fin 8) (bytes : List Byte) : Statement (.downlinkEndBArrival c bytes) := none_of rfl

theorem syncQualifiedLow : Statement .syncQualifiedLow := none_of rfl

theorem syncPulseTimer : Statement .syncPulseTimer := none_of rfl

theorem wakeNack : Statement .wakeNack := none_of rfl

theorem unsupportedCommand (code : Byte) (x : Xfer) : Statement (.unsupportedCommand code x) := none_of rfl

theorem reservedOp (op : BitVec 4) (f : SplFields) : Statement (.reservedOp op f) := none_of rfl

theorem reservedEncoding (e : Engine) (w : Word) : Statement (.reservedEncoding e w) := none_of rfl

theorem reservedStepWord : Statement .reservedStepWord := none_of rfl

end F

end Sys2Proof.Laws
end

