-- ==== Sys2Proof/Laws/Settle.lean ====
section
/-! SUPPORT. What the operations at a command's end leave alone: numbering and routing an event, counters, notices, status
words, flushes, snapshots and following inputs. -/

set_option maxRecDepth 4000

namespace Sys2Proof.Machine

/-- The recorder but for what events and snapshots change of it. -/
def Recorder.still (r : Recorder) : Recorder :=
  { r with buf := [], flushing := [], hold := [], frzCnt := 0, flReq := false, flWait := false, flBusy := false,
           lost := 0, snapBusy := none, snapSeq := 0 }

/-- The part but for what a command's end may change of it. -/
def Chip.still (c : Chip) : Chip :=
  { c with seq := { c.seq with rails := [] }, ev := {}, recd := c.recd.still,
           twb0 := { c.twb0 with armed := false, reqAct := false, recNf := false, asleep := false },
           regs := [], spl := { c.spl with notices := [], lost := false, repAt := 0, pulseEnd := 0 },
           strands := [], pmon := [], raised := [], loop := { c.loop with inj := {} }, snapReq := none }

theorem enter_still (r : Recorder) (x : Record) (b : Bool) : (r.enter x b).still = r.still := by
  unfold Recorder.enter; split <;> rfl

theorem event_still (r : Recorder) (a b c d : Nat) (e : Bool) : (r.event a b c d e).still = r.still := by
  unfold Recorder.event Recorder.merge?; dsimp only
  repeat' split
  all_goals first | rfl | exact enter_still _ _ _

theorem still_recd (c : Chip) : c.still = { c.still with recd := c.recd.still } := rfl

theorem recd_still (c : Chip) (r : Recorder) (h : r.still = c.recd.still) : { c with recd := r }.still = c.still := by
  rw [still_recd c, ← h]; rfl

theorem setReg_still (c : Chip) (a : Nat) (v : Word) : (c.setReg a v).still = c.still := rfl

theorem setBit_still (c : Chip) (a i : Nat) : (c.setBit a i).still = c.still := rfl

theorem putFld_still (c : Chip) (a i l v : Nat) : (c.putFld a i l v).still = c.still := rfl

theorem raise_still (c : Chip) (e s : Nat) : (c.raise e s).still = c.still := rfl

theorem ev_still (c : Chip) (e : Events) : { c with ev := e }.still = c.still := rfl

theorem modRail_still (c : Chip) (n : Nat) (f : Rail → Rail) : (c.modRail n f).still = c.still := rfl

theorem modStrand_still (c : Chip) (n : Nat) (f : Strand → Strand) : (c.modStrand n f).still = c.still := rfl

theorem foldl_still {α : Type} (f : Chip → α → Chip) (l : List α) (c : Chip) (h : ∀ c a, (f c a).still = c.still) :
    (l.foldl f c).still = c.still := by
  induction l generalizing c with
  | nil => rfl
  | cons a l ih => rw [List.foldl_cons, ih, h]

theorem pmonAdd1_still (c : Chip) (o : Occur) (k i : Nat) : (c.pmonAdd1 o k i).still = c.still := by
  unfold Chip.pmonAdd1; dsimp only
  repeat' split
  all_goals first | rfl | (unfold Chip.raiseIf; split <;> rfl)

theorem pmonAdd_still (c : Chip) (o : Occur) (k : Nat) : (c.pmonAdd o k).still = c.still := by
  unfold Chip.pmonAdd; split
  · exact foldl_still _ _ _ fun c i => pmonAdd1_still c o k i
  · rfl

theorem enqueue_still (c : Chip) (e : Event) : (c.enqueue e).still = c.still := by
  unfold Chip.enqueue; dsimp only; split
  · exact (setBit_still _ _ _).trans (ev_still c _)
  · exact ev_still c _

theorem wake_still (c : Chip) (n : Nat) : (c.wakeStrand n).still = c.still := by
  unfold Chip.wakeStrand; dsimp only
  split <;> simp only [modStrand_still]

theorem alert_still (c : Chip) (n : Nat) : (c.alertEvent n).still = c.still := by
  unfold Chip.alertEvent; split <;> rfl

theorem ibr_still (c : Chip) (n : Nat) : (c.ibrEvent n).still = c.still := by
  unfold Chip.ibrEvent; split <;> rfl

theorem route_still (c : Chip) (e : Event) : (c.route e).still = c.still := by
  unfold Chip.route; dsimp only
  generalize hr : c.reg (Reg.route e.ev) = r
  generalize h1 : (if r.getLsbD 3 = true then (c.enqueue e).wakeStrand (fld r 0 3) else c) = c1
  have e1 : c1.still = c.still := by rw [← h1]; split; rw [wake_still, enqueue_still]; rfl
  generalize h2 : (if r.getLsbD 8 = true then c1.alertEvent e.ev else c1) = c2
  have e2 : c2.still = c1.still := by rw [← h2]; split; exact alert_still _ _; rfl
  generalize h3 : (if r.getLsbD 9 = true then c2.ibrEvent e.ev else c2) = c3
  have e3 : c3.still = c2.still := by rw [← h3]; split; exact ibr_still _ _; rfl
  rw [← e1, ← e2, ← e3]
  split
  · exact recd_still _ _ (event_still _ _ _ _ _ _)
  · rfl

theorem splPulse_still (c : Chip) : c.splPulse.still = c.still := by
  unfold Chip.splPulse; split <;> rfl

theorem notice_still (c : Chip) (b : NoticeBody) (n : Nat) : (c.splNotice b n).still = c.still := by
  unfold Chip.splNotice; dsimp only
  repeat' split
  all_goals first | rfl | (rw [splPulse_still]; rfl)

theorem number_still (c : Chip) (r : Raise) : (c.number r).still = c.still := by
  unfold Chip.number; dsimp only
  split
  · rw [notice_still, route_still, pmonAdd_still]; rfl
  · rw [route_still, pmonAdd_still]; rfl

theorem setStatus_still (c : Chip) (e : Nat) (p : Nat × Nat) : (c.setStatus e p).still = c.still := by
  unfold Chip.setStatus; dsimp only; split <;> rfl

theorem statusEvent_still (c : Chip) (e s : Nat) : (c.statusEvent e s).still = c.still := by
  unfold Chip.statusEvent; split
  · exact foldl_still _ _ _ fun c p => setStatus_still c e p
  · rfl

theorem atRaise_still (c : Chip) (r : Raise) : (c.atRaise r).still = c.still := by
  unfold Chip.atRaise; dsimp only
  rw [← statusEvent_still c r.ev r.src]
  split <;> rfl

theorem numberRest_still : ∀ (n : Nat) (c : Chip), (Chip.numberRest n c).still = c.still
  | 0, _ => rfl
  | n + 1, c => by
    unfold Chip.numberRest
    split
    · rfl
    · rw [numberRest_still n, foldl_still _ _ _ number_still, foldl_still _ _ _ atRaise_still]; rfl

theorem flushDue_still (c : Chip) : c.flushDue.still = c.still := by
  unfold Chip.flushDue; dsimp only
  repeat' split
  all_goals rfl

theorem settleEvents_still (c : Chip) : c.settleEvents.still = c.still := by
  unfold Chip.settleEvents; dsimp only
  have h := foldl_still Chip.atRaise c.raised { c with raised := [] } atRaise_still
  split
  · exact h
  · rw [flushDue_still, numberRest_still, foldl_still _ _ _ number_still]; exact h

theorem snapshot_still (c : Chip) (no : Nat × Nat) : (c.settleSnapshot no).still = c.still := by
  unfold Chip.settleSnapshot
  split
  · rfl
  · unfold Chip.takeSnapshot
    repeat' split
    all_goals rfl

theorem twbFollow_still (c : Chip) : c.twbFollow.still = c.still := by
  unfold Chip.twbFollow; dsimp only
  repeat' split
  all_goals rfl

theorem railFault_still (c : Chip) (n : Nat) : (c.railFault n).still = c.still := by
  exact (raise_still _ _ _).trans ((setBit_still _ _ _).trans ((setBit_still _ _ _).trans
    (modRail_still _ _ _)))

theorem ite_still (p : Prop) [Decidable p] (a b c : Chip) (ha : a.still = c.still) (hb : b.still = c.still) :
    (if p then a else b).still = c.still := by split <;> assumption

theorem pgLevel_still (c : Chip) (n : Nat) : (c.pgLevel n).still = c.still := by
  unfold Chip.pgLevel; dsimp only
  split
  · rfl
  · refine ite_still _ _ _ _ ?_ ?_
    · rw [railFault_still, modRail_still]
    · rw [modRail_still]

theorem seqInputs_still (c : Chip) : c.seqInputs.still = c.still := by
  unfold Chip.seqInputs; split
  · exact foldl_still _ _ _ pgLevel_still
  · rfl

/-! Of these, only waking a strand touches the strands. -/

theorem modRail_strands (c : Chip) (n : Nat) (f : Rail → Rail) : (c.modRail n f).strands = c.strands := rfl


theorem enqueue_strands (c : Chip) (e : Event) : (c.enqueue e).strands = c.strands := by
  unfold Chip.enqueue; dsimp only; split
  · exact Chip.setBit_strands _ _ _
  · rfl

theorem alert_strands (c : Chip) (n : Nat) : (c.alertEvent n).strands = c.strands := by
  unfold Chip.alertEvent; split <;> rfl

theorem ibr_strands (c : Chip) (n : Nat) : (c.ibrEvent n).strands = c.strands := by
  unfold Chip.ibrEvent; split <;> rfl

theorem foldl_strands {α : Type} (f : Chip → α → Chip) (l : List α) (c : Chip) (h : ∀ c a, (f c a).strands = c.strands) :
    (l.foldl f c).strands = c.strands := by
  induction l generalizing c with
  | nil => rfl
  | cons a l ih => rw [List.foldl_cons, ih, h]

theorem pmonAdd1_strands (c : Chip) (o : Occur) (k i : Nat) : (c.pmonAdd1 o k i).strands = c.strands := by
  unfold Chip.pmonAdd1; dsimp only
  repeat' split
  all_goals first | rfl | (unfold Chip.raiseIf; split <;> rfl)

theorem pmonAdd_strands (c : Chip) (o : Occur) (k : Nat) : (c.pmonAdd o k).strands = c.strands := by
  unfold Chip.pmonAdd; split
  · exact foldl_strands _ _ _ fun c i => pmonAdd1_strands c o k i
  · rfl

theorem splPulse_strands (c : Chip) : c.splPulse.strands = c.strands := by
  unfold Chip.splPulse; split <;> rfl

theorem notice_strands (c : Chip) (b : NoticeBody) (n : Nat) : (c.splNotice b n).strands = c.strands := by
  unfold Chip.splNotice; dsimp only
  repeat' split
  all_goals first | rfl | (rw [splPulse_strands])

theorem setStatus_strands (c : Chip) (e : Nat) (p : Nat × Nat) : (c.setStatus e p).strands = c.strands := by
  unfold Chip.setStatus; dsimp only; split <;> rfl

theorem statusEvent_strands (c : Chip) (e s : Nat) : (c.statusEvent e s).strands = c.strands := by
  unfold Chip.statusEvent; split
  · exact foldl_strands _ _ _ fun c p => setStatus_strands c e p
  · rfl

theorem atRaise_strands (c : Chip) (r : Raise) : (c.atRaise r).strands = c.strands := by
  unfold Chip.atRaise; dsimp only
  rw [← statusEvent_strands c r.ev r.src]
  split <;> rfl

theorem flushDue_strands (c : Chip) : c.flushDue.strands = c.strands := by
  unfold Chip.flushDue; dsimp only
  repeat' split
  all_goals rfl

theorem snapshot_strands (c : Chip) (no : Nat × Nat) : (c.settleSnapshot no).strands = c.strands := by
  unfold Chip.settleSnapshot
  split
  · rfl
  · unfold Chip.takeSnapshot
    repeat' split
    all_goals rfl

theorem twbFollow_strands (c : Chip) : c.twbFollow.strands = c.strands := by
  unfold Chip.twbFollow; dsimp only
  repeat' split
  all_goals rfl

theorem railFault_strands (c : Chip) (n : Nat) : (c.railFault n).strands = c.strands := by
  exact (Chip.raise_strands _ _ _).trans ((Chip.setBit_strands _ _ _).trans
    ((Chip.setBit_strands _ _ _).trans (modRail_strands _ _ _)))

theorem pgLevel_strands (c : Chip) (n : Nat) : (c.pgLevel n).strands = c.strands := by
  unfold Chip.pgLevel; dsimp only
  split
  · rfl
  · have : ∀ (p : Prop) [Decidable p] (a b : Chip), a.strands = c.strands → b.strands = c.strands →
        (if p then a else b).strands = c.strands := by
      intro p _ a b ha hb; split <;> assumption
    refine this _ _ _ ?_ ?_
    · rw [railFault_strands]; rfl
    · rfl

theorem seqInputs_strands (c : Chip) : c.seqInputs.strands = c.strands := by
  unfold Chip.seqInputs; split
  · exact foldl_strands _ _ _ pgLevel_strands
  · rfl

end Sys2Proof.Machine
end

