-- ==== Sys2Proof/Machine/Pins.lean ====
section
/-! DEFINITION. What the part's output pins drive, as the state decides it: released under R61, the gate outputs of
Table 10.2, the rail enables, the open-drain lines, FAULT#, and general I/O (R60 to R62, R216, R217, R329, R335, R369,
R388, R445, R527, R530). A pin drives `some` level or is released: `none`. -/

namespace Sys2Proof.Machine

/-- The output pins of Table 2.3 whose level the state decides. -/
inductive OutPin where
  | preEn | gateFoff | gateEn
  | conEn (i : Fin 2)
  | seqEn (n : Fin 16)
  | sync | fault | smbAlert | hsda | spAlert
  | gpio (k : Fin 8)
  deriving DecidableEq, Repr

/-- The power domain that owns a pin; FAULT# is AON's (Table 2.3). -/
def OutPin.dom : OutPin → Option Domain
  | .preEn | .gateFoff | .gateEn | .conEn _ => some .afe
  | .seqEn _ | .sync => some .seq
  | .smbAlert | .hsda | .spAlert | .gpio _ => some .ifc
  | .fault => none

/-- The CMOS outputs stand on VIO; open-drain pins do not (Table 2.3's types). -/
def OutPin.onVio : OutPin → Bool
  | .preEn | .gateFoff | .gateEn | .conEn _ | .seqEn _ | .gpio _ => true
  | .sync | .fault | .smbAlert | .hsda | .spAlert => false

/-- An output pin other than FAULT# is not forced to high impedance (R61). -/
def Chip.pinLive (c : Chip) (p : OutPin) : Bool :=
  !c.pwr.vinLow && !c.pwr.resetLow && (match p.dom with | some d => c.up d | none => true) && (!p.onVio || c.pwr.vioGood)

/-- FAULT# is low: AON is powered, the latch is set, and the shelf is not in SHIP (R61, R100). -/
def Chip.faultLow (c : Chip) : Bool := c.pwr.powered.aon && c.pwr.cur != .ship && c.pwr.latch

/-- A comparator or EXT_TRIP# that counts holds GATE_FOFF# low in the states in which it is tested (R335). -/
def Chip.fastOff (c : Chip) : Bool :=
  match c.gate.gst with
  | .open_ | .check => false
  | _ => c.cmpTrips || c.extTrips

/-- What a pin that is live is told to drive. -/
def Chip.pinWish (c : Chip) : OutPin → Option Bool
  | .preEn => some (c.gate.gst matches .prechg | .ramp | .close)
  | .gateFoff => some ((c.gate.gst matches .ramp | .close | .closed) && !c.fastOff)
  | .gateEn => some (c.gate.gst matches .ramp | .close | .closed)
  | .conEn i => some (c.gate.conOut && !(i = 1 && c.onecon))
  | .seqEn n => if (c.rail n.val).driven then some (c.rail n.val).high else none
  | .sync => if c.syncLow then some false else none
  | .fault => if c.faultLow then some false else none
  | .smbAlert => if c.alertDriven then some false else none
  | .hsda =>
    if c.reqPending && (match c.twb0.pulseAt with | some t => c.now < t + 500 | none => false) then some false else none
  | .spAlert => if c.splAlertLow then some false else none
  | .gpio k =>
    if c.bit Reg.gpdir k.val && (!c.bit Reg.gpod k.val || !c.bit Reg.gpout k.val) then some (c.bit Reg.gpout k.val)
    else none

/-- What a pin drives (R61, R62). -/
def Chip.pinDrive (c : Chip) (p : OutPin) : Option Bool :=
  if p = .fault || c.pinLive p then c.pinWish p else none

/-- The level that Table 2.3's board resistor gives a released pin. -/
def OutPin.board : OutPin → Bool
  | .preEn | .gateFoff | .gateEn | .conEn _ => false
  | .seqEn n => Config.seqEnPull n.val
  | .gpio k => Config.gpioPull k.val
  | .sync | .fault | .smbAlert | .hsda | .spAlert => true

/-- The level of a pin that nothing else on the board drives (Table 2.3). -/
def Chip.pinLevel (c : Chip) (p : OutPin) : Bool := (c.pinDrive p).getD p.board

end Sys2Proof.Machine
end

