-- ==== Sys2Proof/Tests/Slice0.lean ====
section
/-! SUPPORT. The model's own tests: a smoke test of well-formedness with an ill-formed term for each check, instruction
words written out by hand from the spec's tables, the spec's worked examples, and for every statement with hypotheses
concrete states and operands that meet them. -/

set_option maxRecDepth 40000
set_option Elab.async false

namespace Sys2Proof.Tests

open Sys2Proof.Machine Sys2Proof.Claims

/-! The states the tests start from: a part that has booted, and variations of it. -/

def upChip : Chip := { pwr := { vinMv := 3300, vinGood := true, vioGood := true, powered := ⟨true,true,true,true,true,true,true,true,true,true⟩, boot := .done, cur := .standby, stage := 4 }, recd := { ready := true } }
def up : State := ⟨upChip, []⟩
def st (c : Chip) : State := ⟨c, []⟩
def imgHead (base kind len : Nat) (body : List Byte) : List Byte :=
  let h := [0x5A, 0x4F, 0x41, 0x4E] ++ natBytes 2 1 ++ natBytes 2 0x1280 ++ natBytes 4 0 ++ natBytes 2 0 ++ natBytes 1 kind ++ natBytes 1 0 ++
    natBytes 4 len ++ natBytes 4 (base + 0x80) ++ natBytes 4 (base + 0x80) ++ natBytes 4 (check body).toNat
  let h := h ++ List.replicate (0x3C - h.length) 0
  h ++ natBytes 4 (check h).toNat
def cellsAt (a : Nat) (bs : List Byte) (bl : Byte) : List Host.Cell :=
  ((List.range bs.length).map fun i => (a + i, bs.getD i 0)).filter fun p => p.2 ≠ bl
def rg (l : List (Nat × Word)) : List (Nat × Word) := (l.foldl (fun (c : Chip) p => c.setReg p.1 p.2) {}).regs
def rowWdt : RegRow := (regRow Reg.wdtctl).getD ⟨0,0,0,0,0,0,0,0,0⟩
def rowHub : RegRow := (regRow Reg.hubstat).getD ⟨0,0,0,0,0,0,0,0,0⟩
def x1 : Chip := { upChip with raised := [⟨1,5,0,none⟩] }
def x2 : Chip := { upChip with raised := [⟨1,5,0,none⟩], ev := { held := [⟨1,5,0,none⟩] } }
def x3 : Chip := { raised := [⟨1,5,0,none⟩], ev := { held := [⟨1,5,0,none⟩] } }
def x4 : Chip := upChip
def x5 : Chip := { upChip with ev := { queue := List.replicate 32 ⟨1,0,5,0⟩, lost := 65535 } }
def w6 : State := st { upChip with strands := [{run := .ready},{run := .ready},{},{},{},{},{},{}] }
def w7 : State := st { upChip with tg := {tick := 0x123456789} }
def w8 : State := st {upChip with regs := [(Reg.syslock, 1),(Reg.tglock,1)]}
def atI (i : Instant) : State := st {upChip with tg := {instant := i, tick := 10, locked := true}}
def w9 : State := atI .vertex
def w10 : State := atI .uplink
def w11 : State := atI .deadline
def w12 : State := atI .chord
def vp (n : Nat) : State := st {upChip with tg := {instant := .chord, pend := some (1000,500,700), pendIn := n, pllReturn := true, fallback := true}}
def w13 : State := vp 1
def w14 : State := vp 2
def ts (arm : Bool) (t : Nat) (v : Bool) : State := st {upChip with regs := [(Reg.tgctl, 1)], tg := {tick := t, ppsArmed := arm, ppsValid := v}}
def w15 : State := ts false 5 false
def w16 : State := ts true 100020000 true
def w17 : State := ts true 100020001 true
def shelfUp : State := st {upChip with pwr := {upChip.pwr with cur := .regulating, latch := true, fltEvt := 48, vinLow := true, rstCause := 1}, gate := {gst := .closed}, strands := List.replicate 8 {run := .ready}, regs := [(Reg.pwrctl, 7), (Reg.wdtctl, 3)], mem := [(0x100,5),(0x20000000,7), (0x21000004, 6)]}
def pf : State := st {upChip with pwr := {upChip.pwr with pfail := true}}
def s0 : State := State.reset
def w19 : State := st {upChip with pwr := {upChip.pwr with held := {sup := true}}}
def bp (b : BootPhase) (f : Power → Power) : State := st {upChip with pwr := f {upChip.pwr with boot := b}}
def w20 : State := bp .fuseLoad (fun p => {p with vinGood := false})
def w21 : State := bp .waitVin id
def w23 : State := bp .powerLock (fun p => {p with powered := {aon := true}, cur := .off})
def w27 : State := bp .app id
def w28 : State := bp .app (fun p => {p with wakeEvent := true})
def w30 : State := bp .done (fun p => {p with wdtRun := true, wdtTicks := 5})
def w31 : State := st {upChip with gate := {gst := .closed}, recd := {flBusy := true}}
def w32 : State := st {upChip with pwr.held := {ifc := true}}
def w33 : State := st {upChip with pwr.request := 1, hub := { upChip.hub with slots := upChip.hub.slots.set 3 { st := .admitted, sent := [1,0,0,0,0,0] } } }
def w34 : State := st {upChip with pwr.request := 1, pwr.powered.hub := false}
def w35 : State := st {upChip with pwr.latch := true, pwr.cur := .faultLatched, pwr.fltEvt := 49}
def w36 : State := bp .off (fun p => {p with cur := .ship})
def hc (f : Chain → Chain) (ins : Instant := .uplink) (run : Bool := true) : Chip := {upChip with tg.instant := ins, hub := {running := run, chains := (List.range 8).map fun i => if i = 2 then f {en := true} else {}}, regs := (List.range 8).map fun i => (Reg.chctl i, 0x41)}
def goodUp : List Byte := sealed (frameCtx 2 true 0) (List.replicate 24 0)
def w40 : State := st (hc id)
def w41 : State := st (hc fun h => {h with folded := true, lockA := true})
def w42 : State := st (hc fun h => {h with dlSent := true})
def w43 : State := st (hc fun h => {h with ranging := some {pos := 1, endB := false, auto := false, launch := some 7}})
def busyHub : State := st {hc (fun h => {h with folded := true}) with hub := {(hc (fun h => {h with folded := true})).hub with slots := (List.range 128).map fun i => if i = 3 then {sent := [1,0,0,0,0,0]} else {}, mboxBusy := true}}
def adm : Chip := {upChip with regs := [(Reg.slotcfg 3, 1)], mem := [(loopRam 0 + 0x818, 1),(loopRam 0 + 0x819, 0xFF),(loopRam 0 + 0x81A, 0xFF),(loopRam 0 + 0x81B, 0x7F)], hub := {slots := (List.range 128).map fun i => if i = 3 then {st := .admitted, sent := [1,0,0,0x80,0,0]} else {}}}
def lst (f : Chip → Chip) : State := st (f upChip)
def w44 : State := lst fun c => {c with regs := [(Reg.lnCfg 2, 0x81)]}
def w45 : State := lst fun c => {c with regs := [(Reg.capbase, 0x20030001)]}
def w46 : State := lst fun c => {c with loop.inj.run := true}
def w47 : State := lst fun c => {c with fo.fo := .dual, tiles := [{},{loadBusy := true}]}
def w48 : State := lst fun c => {c with fo.fo := .single, tiles := [{},{loadBusy := true}]}
def w49 : State := lst fun c => {c with fo.fo := .hold, tiles := [{},{loadBusy := true}]}
def w50 : State := lst fun c => {c with fo := {fo := .takeover, wcs := 100, firstRun := true}, tiles := [{},{loadBusy := true}], regs := [(Reg.tnPlen 1, 4), (Reg.tnPchk 1, 0x48674BC7)]}
def runT : State := lst fun c => {c with tg.instant := .deadline, fo := {fo := .dual}, tiles := [{running := true, shadow := [(1,1)]},{}]}
def x52 : Chip := {upChip with fo.fo := .dual, tiles := [{running := true, failed := some 3},{sby := true}]}
def x53 : Chip := {upChip with fo.fo := .dual, tiles := [{running := true, failed := some 3},{}]}
def lst_g (f : Chip → Chip) : State := st (f upChip)
def g1 : State := lst_g fun c => {c with fo.fo := .dual, hub.running := true, regs := [(Reg.rotiv, 5)], alloc.shdTicks := [0,5,0,0]}
def w54 : State := lst_g fun c => {c with fo.fo := .dual, est.adj := some (3,4)}
def w55 : State := lst_g fun c => {c with fo.fo := .dual, tiles := [{running := true},{}], est.adj := some (3,4)}
def x56 : Chip := {upChip with hub.slots := (List.range 128).map fun i => if i = 3 then {fresh := true, istg := -5000} else {}}
def x57 : Chip := {upChip with est.slots := (List.range 128).map fun i => if i = 3 then {q := -9223372036854775808} else {}, hub.slots := (List.range 128).map fun i => if i = 3 then {fresh := true, istg := 5000} else {}}
def w58 : State := lst_g fun c => {c with regs := [(Reg.fechip, 5)], fo.fo := .dual}
def w59 : State := lst_g fun c => {c with age := {winOn := true, periods := 3, least := 5, settling := true, inhibit := true, vcore := 0, canRun := 1}, tg.instant := .deadline, regs := [(Reg.agectl,1), (Reg.plancfg, 3)]}
def w60 : State := lst_g fun c => {c with age := {stepReq := 5, canRun := 2}, tg.instant := .deadline}
def w61 : State := lst_g fun c => {c with adc := {settled := true}, regs := [(Reg.thctl, 1), (Reg.tslot 127, 4), (Reg.adcctl, 3)], therm.slots := (List.range 128).map fun i => if i = 127 then {exttOk := true, tst := 5, brkS := true} else {}}
def th : State := lst_g fun c => {c with adc := {settled := true}, regs := [(Reg.adcctl, 3)]}
def lst_h (f : Chip → Chip) : State := st (f upChip)
def rl (k : Nat) (r : Rail) : List Rail := (List.range 16).map fun i => if i = k then r else {}
def sq (q : Seq) (regs : List (Nat × Word) := [(Reg.seqctl, 7)]) : State := lst_h fun c => {c with seq := q, regs := regs, now := 50}
def w62 : State := sq {}
def w63 : State := sq {run := true, wait := .sync 3 none 4}
def w64 : State := sq {rails := rl 3 {driven := true}}
def w65 : State := sq {rails := rl 3 {st := .good}} [(Reg.seqctl, 1)]
def w66 : State := sq {rails := rl 3 {st := .latched}}
def cfg (w : Word) : List (Nat × Word) := [(Reg.rnCfg 15, w)]
def w67 : State := sq {rails := rl 15 {st := .rising, pgLevel := true}} []
def w68 : State := sq {rails := rl 15 {st := .rising, riseAt := some 40}} []
def w69 : State := sq {rails := rl 15 {st := .good, pgq := true}} []
def w70 : State := sq {rails := rl 15 {st := .fault, faultAt := some 40}} []
def w71 : State := sq {rails := rl 15 {st := .fault, faultAt := some 40, react := 1, nretry := 2, retries := 1}} []
def w72 : State := sq {rails := rl 15 {st := .fault, faultAt := some 40, react := 3}} []
def w73 : State := sq {rails := rl 15 {st := .retry, retryAt := 30}} []
def w74 : State := sq {rails := rl 15 {st := .falling}} []
def w75 : State := sq {rails := rl 15 {st := .falling, toLatch := true}} []
def stp (w : Word) (ctl : Word := 7) (sy : Nat := 0) (own : Word := 0x8000) : State := sq {run := true, pc := 510, syncSt := sy, auxGood := true} ([(Reg.seqctl, ctl)] ++ [(Reg.rnCfg 15, own ||| 1)] ++ [(Reg.stepMem 510, w)])
def w76 : State := stp 0x04018000
def w77 : State := stp 0x04014000
def w78 : State := stp 0x080F4240
def w79 : State := stp 0x94058000
def w80 : State := stp 0x0D000005
def w82 : State := stp 0x0C000200
def w83 : State := stp 0x10000405
def w84 : State := stp 0x10000005
def w85 : State := stp 0x10000805
def w86 : State := stp 0x14000000
def w87 : State := stp 0
def w88 : State := sq {wait := .time 70, run := true, pc := 510}
def w89 : State := sq {wait := .check true 5 (some 70) 511, run := true, pc := 510}
def w90 : State := sq {wait := .sync 5 (some 70) 511, run := true, pc := 510}
def w91 : State := sq {lineLo := true, auxGood := true}
def w92 : State := sq {lineLo := true, run := true, syncSt := 255, wait := .sync 0 (some 70) 511, lastRise := some 30, auxHiAt := some 20}
def w93 : State := sq {lineLo := true, run := true, syncSt := 255, wait := .sync 0 (some 70) 511, lastRise := some 30, auxHiAt := some 30}
def w94 : State := st {(sq {lastRise := some 30, auxGood := true, inShut := true, run := true}).chip with now := 350}
def w95 : State := sq {rails := rl 3 {st := .good}} [(Reg.seqctl, 1), (Reg.rnDch 3, 23)]
def lst_i (f : Chip → Chip) : State := st (f upChip)
def stx (k : Nat) (r : Strand) : List Strand := (List.range 8).map fun i => if i = k then r else {}
def w96 : State := lst_i fun c => {c with strands := stx 7 {run := .waiting}}
def iss : State := lst_i fun c => {c with now := 500, strands := (List.range 8).map fun i => if i < 3 then {run := .ready} else {}, issue := {holder := some 1, since := 3}, regs := [(Reg.quant, 0)] ++ (List.range 8).map fun i => (Reg.snCtl i, 0x10000)}
def w97 : State := lst_i fun c => {c with ev := {queue := [⟨1,2,3,4⟩, ⟨1,2,3,5⟩], lost := 4}}
def inp (k : Nat) (r : Input) (w : Word) : State := lst_i fun c => {c with inputs := (List.range 32).map (fun i => if i = k then r else {}), regs := [(Reg.incfg k, w)]}
def w98 : State := inp 4 {} 0
def w99 : State := inp 4 {edges := 5, level := true} 0x01000700
def w100 : State := inp 11 {edges := 6, level := true} 0x01400700
def x102 : Chip := {upChip with pmon := [281474976710655,0,0,0,0,0,0,0], regs := [(Reg.pmctl, 1), (Reg.cntCfg 0, 0x200006)]}
def lst_j (f : Chip → Chip) : State := st (f upChip)
def stx_j (k : Nat) (r : Strand) : List Strand := (List.range 8).map fun i => if i = k then r else {}
def regs16 : List Word := [0,5,0xFFFFFFF9,0x80000000,0x20000010,7,0,0,0,0,0,0,0,0,0,0]
def sst (f : Strand → Strand) : State := lst_j fun c => {c with strands := stx_j 3 (f {run := .ready, pc := 0x20001000, g := regs16, p := [true,false,true,false]})}
def tst (f : Tile → Tile) : State := lst_j fun c => {c with fo.wcs := 3000, tiles := [{}, f {running := true, pc := 0x2000, g := regs16, p := [true,false,true,false], rpt := []}]}
def w103 : State := sst id
def w104 : State := tst id
def ld (f : Strand → Strand) : State := let s := sst f; {s with chip := {s.chip with mem := [(0x20000010, 0x81),(0x20000011, 0x82),(0x20000012,3),(0x20000013,0x84),(0x20000014,9)]}}
def w105 : State := ld id
def x106 : Strand := { (ld id).chip.strand 3 with pc := 0x20001004 }
def w107 : State := ld fun S => {S with g := S.g.set 3 0x84038281}
def x108 : Strand := { (ld fun S => {S with g := S.g.set 3 0x84038281}).chip.strand 3 with pc := 0x20001004 }
def x109 : Strand := (sst id).chip.strand 3
def pend3 : State := let s := sst fun S => {S with epc := 0x20000040, ecause := 4, eaddr := 5, ppriv := true, eval := 7, scr := 8, starv := 2}
  {s with chip := {s.chip with ev := {queue := [⟨1,0,0,0⟩], pend := 1}, regs := [(Reg.route 0, 0x0B)]}}
def x110 : Chip := (sst id).chip
def x111 : Strand := pend3.chip.strand 3
def usr : State := sst fun S => {S with priv := false, g := S.g.set 3 0x50000001}
def x112 : Strand := usr.chip.strand 3
def tdl : State := let s := tst id; {s with chip := {s.chip with tg.instant := .deadline}}
def x113 : Strand := tdl.chip.strand 3
def nof : State := sst fun S => {S with pc := 0x50000000}
def x114 : Strand := nof.chip.strand 3
def tm (f : Tile → Tile) : State := let s := tst fun T => f {T with g := T.g.set 1 0x800, a := [-5, 7, 9223372036854775807, 100], v := (List.range 8).map fun i => (List.range 128).map fun j => BitVec.ofInt 32 (if i = 2 then 0x7FFFFFF0 + Int.ofNat j else if i = 3 then -100 + 7 * Int.ofNat j else Int.ofNat (i * j)), vmask := 0x5A5A, vg0 := 0, vn := 2}
  {s with chip := {s.chip with mem := [(loopRam 1 + 0x800, 0x81), (loopRam 1 + 0x801, 0x82), (loopRam 1 + 0x807, 0x93), (loopRam 1 + 0x808, 0x94)], tg.instant := .deadline}}
def w115 : State := tm id
def x116 : Tile := (tm id).chip.tile 1
def w119 : State := tm (fun T => {T with stepped := true})
def x120 : Tile := (tm (fun T => {T with stepped := true})).chip.tile 1
def lst_k (f : Chip → Chip) : State := st (f upChip)
def w122 : State := lst_k fun c => {c with memc.merge := some (0xF0000, some 5, none)}
def w123 : State := lst_k fun c => {c with regs := [(Reg.fladdr, 0xFDFFF)]}
def w124 : State := lst_k fun c => {c with tiles := [{ready := true},{}]}
def w125 : State := lst_k fun c => {c with memc.op := some (.program 0xFFFF8 0x12345678 0xFFFFFFFF none)}
def w127 : State := lst_k fun c => {c with memc.op := some (.erase 0xFF000), mem := [(0xFF000, 5), (0xFFFFF, 6)]}
def sc (f : Chip → Chip) : State := lst_k fun c => f c
def w128 : State := sc id
def w129 : State := sc fun c => {c with memc.scrOff := 0x3FFF8, badPar := [0x2003FFF9], memc.poison := 1}
def w130 : State := sc fun c => {c with memc.scrOff := 0x3FFFC, badPar := [0x2003FFFD], memc.poison := 1}
def re (f : Recorder → Recorder) (regs : List (Nat × Word) := []) (m : List Host.Cell := []): State := lst_k fun c => {c with recd := f c.recd, regs := regs, mem := m}
def w132 : State := re id
def w133 : State := re fun r => {r with frozen := true, frzCnt := 5, frzAt := 3}
def w134 : State := re (fun r => {r with buf := [{seq := 1, stamp := 2}]}) [(Reg.reccfg, 0x10000)]
def w135 : State := re (fun r => {r with flBusy := true, wptr := 8191, flushing := [{seq := 1, stamp := 2}], ersBusy := some 63}) [] [(recAddr 8191, 5)]
def w136 : State := re (fun r => {r with flBusy := true})
def w137 : State := re fun r => {r with ready := false}
def w139 : State := re (fun r => {r with snapBusy := some (7, List.replicate 4096 5)}) [(Reg.snaplock, 0xFF)]
def fd : BitVec 64 := 0x123456789ABCDEF0
def fst_ (x : BitVec 64) : Chip := {upChip with mem := cellsAt 8 (natBytes 8 x.toNat) 0xFF, ecc := [(8, eccBits fd)]}
def x140 : Chip := fst_ fd
def x141 : Chip := fst_ (fd ^^^ (1#64 <<< 63))
def x142 : Chip := fst_ (fd ^^^ (1#64 <<< 63) ^^^ (1#64 <<< 0))
def w143 : State := lst_k fun c => {c with memc.op := some (.erase 0xFF000), mem := [(0xFEFFF, 5), (0xFFFFF, 6)]}
def w144 : State := sc fun c => {c with mem := [(8, 4)], ecc := [(8, eccBits 0xFFFFFFFFFFFFFF05)]}
def lst_l (f : Chip → Chip) : State := st (f upChip)
def ad (f : Adc → Adc) (regs : List (Nat × Word) := [(Reg.adcctl, 3)]) : State := lst_l fun c => {c with adc := f c.adc, regs := rg regs, tg.tick := 100}
def cv (k : Nat) (x : ConvClass := .regular) : Converter := {busy := some ⟨k, x, 7, 2500000, true⟩}
def w146 : State := ad fun a => {a with conv := [{}, cv 23 .vertex], results := a.results.set 23 {cnt := 255}, settleAt := some 5}
def w147 : State := ad (fun a => {a with conv := [{}, cv 3], refLost := true, inRange := 1}) [(Reg.chGain 3, 0x80000000)]
def w148 : State := ad fun a => {a with conv := [cv 2, cv 3]}
def w149 : State := ad fun a => {a with conv := [cv 2, cv 3], injQ := List.replicate 4 ⟨1,0⟩}
def w150 : State := ad fun a => {a with conv := [cv 2, cv 3], settled := true}
def w151 : State := ad (fun a => {a with conv := [cv 2, cv 3]})
def w152 : State := ad (fun a => {a with conv := [cv 2, {calRun := true, calStep := 15}]}) [(Reg.rseqCtl 1, 0x100), (Reg.adcctl, 3)]
def w153 : State := ad (fun a => {a with conv := [cv 2, {passEnd := true}]}) [(Reg.adcctl, 3), (Reg.rseqCtl 1, 0x100), (rseqReg 1 1, 23)]
def ga (g : Gate) (p : Pins := {gateFltLow := false}) (f : Chip → Chip := id) : State := lst_l fun c => f {c with gate := g, pins := p, tg.tick := 100, adc := {c.adc with settled := true}}
def liveG : Gate := {vrack := 50000, last := [some 100, some 100, some 100, some 100]}
def w154 : State := ga liveG {gateFltLow := false} (fun c => {c with regs := rg [(Reg.uvlim, 40000), (Reg.ovlim, 60000)]})
def w155 : State := ga liveG {} (fun c => {c with pwr.latch := true})
def lev (st : Gst) (g : Gate := {}) (p : Pins := {gateFltLow := false}) (f : Chip → Chip := id) : State := ga {g with gst := st} p (fun c => f {c with regs := rg [(Reg.gcfg, 0), (Reg.uvlim, 0), (Reg.ovlim, 60000), (Reg.oclim, 60000), (Reg.i2tlim, 60000)]})
def w156 : State := lev .check
def w157 : State := lev .ramp
def w158 : State := lev .close {} {gateFltLow := false, confb := [true,false]}
def w159 : State := lev .closed {} {gateFltLow := false, confb := [true,true]}
def w160 : State := lev .opening {conHigh := true} {gateFltLow := false, confb := [true,true]}
def w161 : State := lev .opening {ioff := true} {gateFltLow := false, confb := [false,true]}
def w162 : State := lev .prechg {pretDone := true}
def w163 : State := lev .prechg
def w164 : State := lev .prechg {ish := -99999999}
def w165 : State := lev .ramp {vsw := 99999999}
def w166 : State := lev .closed {conBad := [none, some 5]}
def cmpS (w : Word) : State := lev .closed {} {gateFltLow := false} (fun c => {c with regs := rg [(Reg.cmpCfg 7, w)]})
def w167 : State := cmpS 5
def w168 : State := cmpS 1
def w170 : State := lev .open_ {cause := 0x1FFF}
def w171 : State := lev .open_ {cause := 0x1FFF} {} (fun c => {c with regs := rg [(Reg.eldlo, 4), (Reg.eldhi, 5), (Reg.cmpCfg 7, 1)]})
def w172 : State := lev .closed {} {gateFltLow := false} (fun c => {c with regs := rg [(Reg.gcfg, 4), (Reg.incfg 0, 0)], inputs := (List.range 32).map fun i => if i = 0 then {level := true, raw := true} else {}})
def w173 : State := lst_l fun c => {c with fuses.shadow := List.replicate 128 0x50005}
def mkF (op ctx seq loop arg : Nat) : SplFields :=
  let f : SplFields := {seq := BitVec.ofNat 2 seq, loop := ⟨loop % 4, by omega⟩, arg := BitVec.ofNat 24 arg, chk := 0}
  {f with chk := checkCtx (word ctx) (splBytes f op)}
def sp (p : Spl) (regs : List (Nat × Word) := [(Reg.splctl, 3)]) : State := lst_l fun c => {c with spl := p, regs := rg regs, tg.tick := 100}
def wf (f : SplFields) (op : Nat) : Word := word (bytesVal (splBytes f op))
def w174 : State := sp {e := 0xFFFFFF}
def w175 : State := sp {e := 5}
def gl (k : Nat) (fv : Word) : State := let s := sp {e := 5, goals := List.replicate k ⟨0,0,0,0⟩} [(Reg.splctl, 3), (Reg.lnCfg 2, 9)]; {s with chip := {s.chip with fo.fo := .dual, fuses.shadow := List.replicate 128 fv, loop.loops := s.chip.loop.loops}}
def w176 : State := gl 0 0
def w177 : State := gl 7 0xFFFFFFFF
def w178 : State := gl 8 0xFFFFFFFF
def w179 : State := sp {e := 5, notices := [⟨⟨1,2,3⟩,4,99⟩, ⟨⟨1,2,3⟩,4,99⟩], lost := true}
def up1 (f : SplFields) : State := sp {e := 0, lastFrame := some (wf f 0), lastByte := 0xE1, lastBlock := [1,2]}
def w180 : State := up1 (mkF 0 0xFFFFFF 3 0 0)
def w181 : State := sp {e := 0, pulseDue := true, notices := [⟨⟨1,2,3⟩,4,99⟩]}
def w182 : State := sp {e := 0, notices := [⟨⟨1,2,3⟩,4,99⟩]} [(Reg.splctl, 0x103)]
def lst_m (f : Chip → Chip) : State := st (f upChip)
def tw (t : Twb0) (regs : List (Nat × Word) := [(Reg.twbctl, 1), (Reg.twbaddr, 0x40)]) (f : Chip → Chip := id) : State := lst_m fun c => f {c with twb0 := t, regs := rg regs, now := 500}
def w183 : State := tw {page := 0, cml := 5, wprot := 0x20, winCur := 0x20000000, winCnt := 2, tlm := true}
def w184 : State := tw {page := 0x80} [(Reg.twbctl, 1)] (fun c => {c with gate := {vrack := 51234, ish := -5000, psh := 99}})
def w185 : State := tw {page := 0xFF}
def w189 : State := tw {page := 0x80}
def w190 : State := tw {page := 0x0}
def w191 : State := tw {page := 0x0} [(Reg.twbctl, 1)] (fun c => {c with upd := {phase := 1, owner := some false, rx := List.replicate 120 3}})
def w192 : State := tw {page := 0x0, hcq := List.replicate 8 ⟨0,1,2,true⟩}
def w193 : State := tw {page := 0x0, wprot := 0x80}
def w194 : State := tw {armed := true, reqAct := true, pulseAt := some 5, asleep := false} [(Reg.twbctl, 5), (Reg.alrtpend 0, 1), (Reg.ibrpend 0, 2)]
def w196 : State := tw {asleep := true} [(Reg.twbctl, 5)]
def w197 : State := tw {}
def w198 : State := tw {cBusy := true, cBack := some 600} [(Reg.ctlctl, 5)]
def w199 : State := tw {cBusy := true} [(Reg.lctl, 1)]
def w200 : State := tw {cBusy := true} [(Reg.lxfer, 0x00100100)] (fun c => {c with twb1.busy := true})
def w201 : State := tw {page := 0x3, winCnt := 1, winCur := Reg.devid}
def w202 : State := tw {armed := true, reqAct := true, pulseAt := some 5, asleep := false} [(Reg.twbctl, 0x1D), (Reg.alrtpend 0, 1), (Reg.ibrpend 0, 2)]
def ud (u : Upd) (f : Chip → Chip := id) : State := lst_m fun c => f {c with upd := u, now := 500, regs := rg [(Reg.updguard, 0)]}
def w204 : State := ud {stale := false}
def w205 : State := ud {phase := 6, trial := true, stale := false}
def w206 : State := ud {phase := 2}
def w207 : State := ud {phase := 1, owner := some true, rx := List.replicate 127 1, stale := false}
def w208 : State := ud {phase := 1, owner := some true, rx := List.replicate 128 1, stale := false}
def h1 : List Byte := imgHead 0x10000 0 4 [1,2,3,4] ++ List.replicate 64 0
def w209 : State := ud {phase := 1, owner := some true, rx := h1, stale := false}
def w210 : State := ud {phase := 3, owner := some true, rx := h1, got := 128, base := 0x10000, len := 0x1000, stale := false} fun c => {c with mem := [(0x10FFF, 5), (0x11080, 6)]}
def w212 : State := ud {phase := 5, base := 0x10000, len := 0, timeAt := some 7, trial := true} fun c => {c with mem := [(0x1001C, 0), (0x1001D, 0), (0x1001E, 0), (0x1001F, 0)]}
def w213 : State := ud {phase := 5, base := 0x10000, len := 1, timeAt := some 7, trial := true}
def fu (f : Fuses) (rs : List (Nat × Word)) (p : Power → Power := id): State := lst_m fun c => {c with fuses := f, regs := rg rs, pwr := p c.pwr}
def w214 : State := fu {} [(Reg.faddr, 127), (Reg.fdata, 5)]
def w216 : State := fu {} [(Reg.faddr, 3), (Reg.fdata, 5)]
def w217 : State := fu {busy := some (127, 0xF0), array := List.replicate 128 5} [(Reg.faddr, 3), (Reg.fdata, 5)]
def w218 : State := tw {page := 0x3, winCnt := 1, winCur := Reg.devid} [(Reg.twbctl,1), (Reg.winlo, word Reg.devid), (Reg.winhi, word Reg.devid)]

/-- The shape invariant as one decision. -/
def shapeOk (c : Chip) : Bool :=
  Memory.wf c.mem && twf regReset 0 c.regs && twf (fun _ => (0 : Word)) 0 c.shadows && c.strands.length == 8 &&
    c.tiles.length == 2 && c.inputs.length == 32 && c.pmon.length == 8 && c.pmon.all (fun k => decide (k < 2 ^ 48)) &&
    decide (c.ev.queue.length ≤ 32) && decide (c.ev.lost ≤ 0xFFFF) && decide (c.ev.seq < 2 ^ 32)

theorem inv_of {c : Chip} (h : shapeOk c = true) : c.Inv := by
  simp only [shapeOk, Bool.and_eq_true, decide_eq_true_eq, beq_iff_eq, List.all_eq_true] at h
  obtain ⟨⟨⟨⟨⟨⟨⟨⟨⟨⟨h1, h2⟩, h3⟩, h4⟩, h5⟩, h6⟩, h7⟩, h8⟩, h9⟩, h10⟩, h11⟩ := h
  exact ⟨h1, h2, h3, h4, h5, h6, ⟨h7, h8⟩, ⟨h9, h10, h11⟩⟩

/-! Well-formedness: each check of Instr.wf refuses an ill-formed term. -/

theorem test_wf_refuses_addresses : (Instr.registerWrite .window 0x100000000 4 0).wf = false ∧
    (Instr.registerWrite .window 0x40000000 3 0).wf = false ∧ (Instr.rcRead .window 0x100000000).wf = false ∧
    (Instr.lowHalfRead .window 0x100000000).wf = false := by decide

theorem test_wf_refuses_voltages : (Instr.aonPowerOn 65536).wf = false ∧ (Instr.aonPowerOff 65536).wf = false ∧
    (Instr.brownOut 65536).wf = false ∧ (Instr.vinLow 65536).wf = false ∧ (Instr.vinLowRecovery 65536).wf = false ∧
    (Instr.powerFail 65536).wf = false ∧ (Instr.powerFailRecovery 65536).wf = false ∧
    (Instr.vinWarning true 65536).wf = false ∧ (Instr.vinLowRising 65536).wf = false := by decide

theorem test_wf_refuses_frames_and_readings : (Instr.uplinkFrameArrival 0 .a (List.replicate 257 0)).wf = false ∧
    (Instr.downlinkEndBArrival 0 (List.replicate 257 0)).wf = false ∧ (Instr.markArrival 0 65536).wf = false ∧
    (Instr.dieConversion 32768 0).wf = false ∧ (Instr.dieConversion 0 (-32769)).wf = false ∧
    (Instr.localTransferDone false (List.replicate 17 0) 0).wf = false := by decide +kernel

theorem test_wf_refuses_named_codes : (Instr.reservedOp 15 ⟨0, 0, 0, 0⟩).wf = false ∧
    (Instr.unsupportedCommand 0xD9 .read).wf = false := by decide

theorem test_wf_refuses_zis_fields : (Instr.crd 0 1 8).wf = false ∧ (Instr.cwr 0 8 1).wf = false ∧
    (Instr.ldqU 0 .always .word 1 ⟨0, true, 0⟩).wf = false ∧ (Instr.vrange 0 15 1).wf = false ∧
    (Instr.vld 0 .half false false 0 0 ⟨0, true, 0⟩).wf = false ∧ (Instr.vld 0 .word true false 5 0 ⟨0, true, 0⟩).wf = false ∧
    (Instr.vst 0 .word false 1 0 ⟨0, true, 0⟩).wf = false ∧ (Instr.reservedEncoding (.strand 0) 0).wf = false := by
  decide +kernel

theorem test_wf_refuses_long_transfers : (Instr.page (.write (List.replicate 256 0) none)).wf = false ∧
    (Instr.operation (.write (List.replicate 256 0) none)).wf = false ∧
    (Instr.mfrUpdData (.write (List.replicate 256 0) none)).wf = false := by decide +kernel

/-! Words written out by hand from Tables 13.4 to 13.20. -/

theorem test_word_add : zisDecode (.strand 0) 0x00C48000 = some (.add (.strand 0) .always 3 1 2) := by decide
theorem test_word_sub : zisDecode (.strand 0) 0x00C4801D = some (.sub (.strand 0) (.when 1 false) 3 1 2) := by decide
theorem test_word_addi : zisDecode (.strand 0) 0x095BFFFA = some (.addi (.strand 0) (.when 2 true) 5 6 0x3FFF) := by decide
theorem test_word_lui : zisDecode (.strand 0) 0x2D500010 = some (.lui (.strand 0) .always 5 0x10001) := by decide
theorem test_word_cmp : zisDecode (.strand 0) 0x32049000 = some (.cmp (.strand 0) .always .lt 2 1 2) := by decide
theorem test_word_cmpi : zisDecode (.tile 1) 0x37AFFFF0 = some (.cmpi (.tile 1) .always .geu 3 7 0x1FFF) := by decide
theorem test_word_pandn : zisDecode (.tile 1) 0x39EC0000 = some (.pandn (.tile 1) .always 1 2 3) := by decide
theorem test_word_ldw : zisDecode (.strand 0) 0x41140080 = some (.ldw 0 .always 4 5 8) := by decide
theorem test_word_stb : zisDecode (.strand 0) 0x5D17FFF0 = some (.stb 0 .always 4 5 0x3FFF) := by decide
theorem test_word_b : zisDecode (.strand 0) 0x6448FFFF = some (.b 0 (.cmp .ne 1 2) 0x7FFF) := by decide
theorem test_word_b2 : zisDecode (.strand 0) 0x64838003 = some (.b 0 (.bnp 2) 3) := by decide
theorem test_word_jal : zisDecode (.strand 0) 0x6BFFFFFE = some (.jal 0 0x3FFFFFE) := by decide
theorem test_word_jalr : zisDecode (.strand 0) 0x6C3C0000 = some (.jalr 0 0 15 0) := by decide
theorem test_word_sysc : zisDecode (.strand 0) 0x70001550 = some (.sysc 0 0x155) := by decide
theorem test_word_ldq : zisDecode (.tile 1) 0x80480250 = some (.ldq 1 .always .half 1 ⟨2, true, 4⟩) := by decide
theorem test_word_mac : zisDecode (.tile 1) 0x8D23C800 = some (.mac 1 .always 1 2 3 50) := by decide
theorem test_word_rpt : zisDecode (.tile 1) 0x93FFF4FF = some (.rpt 1 255 63 4 255) := by decide
theorem test_word_endLoop : zisDecode (.tile 1) 0x94000000 = some (.endLoop 1) := by decide
theorem test_word_vrange : zisDecode (.tile 1) 0x98880000 = some (.vrange 1 2 2) := by decide
theorem test_word_vld : zisDecode (.tile 1) 0xA1A57FFF = some (.vld 1 .byte true true 3 3 ⟨4, true, 0x7FF⟩) := by decide
theorem test_word_vadd : zisDecode (.tile 1) 0xA9198000 = some (.vadd 1 false 2 1 (.reg 9)) := by decide
theorem test_word_vmld : zisDecode (.tile 1) 0xAC340800 = some (.vmld 1 ⟨6, true, 16⟩) := by decide

/-- Major 0x3F is reserved in every profile (erased flash), and a non-zero sh of format A is reserved. -/
theorem test_word_reserved : zisDecode (.strand 0) 0xFFFFFFFF = none ∧ zisDecode (.tile 0) 0xFFFFFFFF = none ∧
    zisDecode (.strand 0) 0x00C48100 = none ∧ zisDecode (.strand 0) 0x80480250 = none := by decide

/-! The spec's worked examples, one step or one function each. -/

/-- R13's example, byte by byte through the CRC block: after "12345678" the last byte gives 0xE3069283. -/
theorem test_crc_byte : (match exec (.crcByte .window 0x39) (st { upChip with
    crc := crcBytes 0xFFFFFFFF [0x31, 0x32, 0x33, 0x34, 0x35, 0x36, 0x37, 0x38] }) with
    | .next t => ~~~t.chip.crc | _ => 0) = 0xE3069283 := by decide +kernel

/-- Slot 37 is position 5 on chain 2 (R1). -/
theorem test_slot_37 : 16 * 2 + 5 = 37 ∧ Reg.slotcfg 37 = Reg.slotcfg 0 + 4 * 37 := by decide

/-- Chapter 16's example: CH2GAIN 0x00400000, CH2OFS 0xFFFB3B4C, code 48 497 and 2.5 V give 150 003 mA. -/
theorem test_adc_example : ({ regs := rg [(Reg.chGain 2, 0x00400000), (Reg.chOfs 2, 0xFFFB3B4C)] } : Chip).corrected 2
    48497 2500000 = 0x000249F3 := by decide +kernel

/-- Chapter 17's example: 150 003 mA is 0xF258 in LINEAR11. -/
theorem test_linear11_example : linear11 150003 1000 = 0xF258 := by decide +kernel

/-- Chapter 10's example: at 450 A over a rating of 300 A the fuse gains 112 500 a tick. -/
theorem test_fuse_example : ({ gate := { ish := 450000 }, regs := rg [(Reg.i2tir, 0x12C)] } : Chip).heatStep 1 = 112500 := by
  decide +kernel

/-- 41.25 °C is 2640 (R12), and a reading of 0x0A50 is in the die's range. -/
theorem test_temperature_example : dieOk 0x0A50 = true ∧ dieOk (-3521) = false := by decide

/-- Step memory that was never written holds a reserved word (R428). -/
theorem test_cleared_step : seqDecode 0 = none ∧ seqDecode 0x08000000 = none ∧ seqDecode 0x080F4241 = none := by decide

/-- A DRST or SWRST without its key changes nothing (R97). -/
theorem test_swrst_key : (match exec (.swrst .window 0xD1E4) (st upChip) with | .next t => t.chip.up .sup | _ => false) =
    true := by decide +kernel

/-- A division by zero gives all ones, and the most negative number over −1 wraps (Table 13.7). -/
theorem test_division : (0x80000000#32).sdiv 0xFFFFFFFF#32 = 0x80000000#32 ∧ sat (2 ^ 31) = 0x7FFFFFFF#32 := by decide +kernel

/-- A byte access to a register is a bus error (R6). -/
theorem test_byte_access : (match exec (.registerWrite .window Reg.period 1 5) (st upChip) with
    | .next t => t.chip.answer | _ => .none) = .busError := by decide +kernel


/-! Output pins. -/

/-- Table 10.2, row PRECHG. -/
theorem test_pins_prechg :
    ([OutPin.preEn, .gateFoff, .gateEn, .conEn 0].map
      (Chip.pinDrive { upChip with gate.gst := .prechg })) = [some true, some false, some false, some false] := by decide

/-- R61: below VIN's operating minimum the gate outputs are released, and the board's resistors pull them low. -/
theorem test_pins_vin_low :
    let c := { upChip with gate.gst := .closed, pwr := { upChip.pwr with vinLow := true } }
    c.pinDrive .gateEn = none ∧ c.pinLevel .gateEn = false := by decide

/-- R61: FAULT# stays low while RESET# is low, and is released in SHIP. -/
theorem test_pins_fault :
    Chip.pinLevel { upChip with pwr := { upChip.pwr with latch := true, resetLow := true } } .fault = false ∧
    Chip.pinLevel { upChip with pwr := { upChip.pwr with latch := true, cur := .ship } } .fault = true := by decide

/-! Witnesses for the statements' hypotheses. -/

/-- States and operands that meet the hypotheses of `idle_and_queue` (empty queue passes one tick), clause by
clause. -/
theorem test_empty_queue_passes_one_tick_applies :
    (up.pending = []) :=
  by decide +kernel

/-- States and operands that meet the hypotheses of `command_end_frame`, clause by clause. -/
theorem test_command_end_frame_applies :
    ((x1.strand 3).run ≠ RunState.waiting) :=
  by decide +kernel

/-- States and operands that meet the hypotheses of `event_numbering` (every raising takes a number), clause by
clause. -/
theorem test_every_raising_takes_a_number_applies :
    (x2.Inv ∧ x2.up Domain.sup = true ∧ x2.bit Reg.pmctl 0 = false) ∧
    (x3.Inv ∧ x3.up Domain.sup = false) :=
  ⟨⟨inv_of (by decide +kernel), by decide +kernel, by decide +kernel⟩,
   ⟨inv_of (by decide +kernel), by decide +kernel⟩⟩

/-- States and operands that meet the hypotheses of `event_queue` (event queue takes 32), clause by clause. -/
theorem test_event_queue_takes_32_applies :
    (x4.Inv ∧ { seq := (1 : Nat), stamp := (0 : Nat), ev := (5 : Nat), src := (0 : Nat) : Event }.ev < (128 : Nat) ∧ x4.ev.queue.length < 32) ∧
    (x5.Inv ∧ { seq := (1 : Nat), stamp := (0 : Nat), ev := (5 : Nat), src := (0 : Nat) : Event }.ev < (128 : Nat) ∧ 32 ≤ x5.ev.queue.length) :=
  ⟨⟨inv_of (by decide +kernel), by decide +kernel, by decide +kernel⟩,
   ⟨inv_of (by decide +kernel), by decide +kernel, by decide +kernel⟩⟩

/-- States and operands that meet the hypotheses of `register_access` (register access rules), clause by clause. -/
theorem test_register_access_rules_applies :
    (inBlock (1073758208 : Nat) = true) :=
  by decide +kernel

/-- States and operands that meet the hypotheses of `register_access` (refused register access), clause by clause.
-/
theorem test_refused_register_access_applies :
    (up.chip.Inv ∧ inBlock (1073758210 : Nat) = true ∧ up.chip.writeGrant (Master.strand (1 : Fin 8)) 1073758210 4 =
      false ∧ (up.chip.strand (1 : Fin 8).val).run ≠ RunState.ready) ∧
    (w6.chip.Inv ∧ inBlock (1073758210 : Nat) = true ∧ w6.chip.writeGrant (Master.strand (1 : Fin 8)) 1073758210 4 =
      false ∧ (w6.chip.strand (1 : Fin 8).val).run = RunState.ready) :=
  ⟨⟨inv_of (by decide +kernel), by decide +kernel, by decide +kernel, by decide +kernel⟩,
   ⟨inv_of (by decide +kernel), by decide +kernel, by decide +kernel, by decide +kernel⟩⟩

/-- States and operands that meet the hypotheses of `plain_writes_and_locks` (plain write by access code), clause by
clause. -/
theorem test_plain_write_by_access_code_applies :
    (x4.Inv ∧ regRow Reg.wdtctl = some rowWdt ∧ (0 : Nat) ≠ Reg.wdtctl) ∧
    (x4.Inv ∧ regRow (Reg.wdtctl + (2048 : Nat)) = none) :=
  ⟨⟨inv_of (by decide +kernel), by decide +kernel, by decide +kernel⟩,
   ⟨inv_of (by decide +kernel), by decide +kernel⟩⟩

/-- States and operands that meet the hypotheses of `reads_with_effects` (register read clears rc), clause by
clause. -/
theorem test_register_read_clears_rc_applies :
    (up.chip.Inv ∧ up.chip.regGrant Master.window Reg.hubstat 4 true = true ∧ Reg.hubstat ≠ Reg.win0 (7 : Nat) ∧
      Reg.hubstat ≠ Reg.win1 (7 : Nat) ∧ Reg.hubstat ≠ Reg.snapdata ∧ up.chip.highHalf Reg.hubstat = none ∧ regRow
      Reg.hubstat = some rowHub) :=
  ⟨inv_of (by decide +kernel), by decide +kernel, by decide +kernel, by decide +kernel, by decide +kernel,
      by decide +kernel, by decide +kernel⟩

/-- States and operands that meet the hypotheses of `reads_with_effects` (low half read latches a shadow), clause by
clause. -/
theorem test_low_half_read_latches_a_shadow_applies :
    (w7.chip.Inv ∧ w7.chip.regGrant Master.window Reg.ticklo 4 true = true ∧ Master.strand (3 : Fin 8) ≠
      Master.window) :=
  ⟨inv_of (by decide +kernel), by decide +kernel, by decide +kernel⟩

/-- States and operands that meet the hypotheses of `plain_writes_and_locks` (locks set and hold), clause by clause.
-/
theorem test_locks_set_and_hold_applies :
    (MayWrite up Master.window (lockAddr LockReg.flock) ∧ BitVec.getLsbD (1 : Word) (0 : Nat) = true) ∧
    (MayWrite w8 Master.window (lockAddr LockReg.tglock) ∧ BitVec.getLsbD (0 : Word) (0 : Nat) = false) ∧
    (w8.chip.bit Reg.tglock 0 = true ∧ MayWrite w8 Master.window Reg.tgctl) ∧
    (w8.chip.bit Reg.tglock 0 = true ∧ MayWrite w8 Master.window Reg.ppswin) ∧
    (w8.chip.bit Reg.syslock 0 = true ∧ MayWrite w8 Master.window Reg.wdtctl) :=
  ⟨⟨by decide +kernel, by decide +kernel⟩,
   ⟨by decide +kernel, by decide +kernel⟩,
   ⟨by decide +kernel, by decide +kernel⟩,
   ⟨by decide +kernel, by decide +kernel⟩,
   ⟨by decide +kernel, by decide +kernel⟩⟩

/-- States and operands that meet the hypotheses of `sram_store_changes_its_bytes_only`, clause by clause. -/
theorem test_sram_store_changes_its_bytes_only_applies :
    (up.chip.Inv ∧ ((2 : Nat) = (1 : Nat) ∨ (2 : Nat) = (2 : Nat) ∨ (2 : Nat) = (4 : Nat)) ∧ (536870914 : Nat) % (2
      : Nat) = (0 : Nat) ∧ inSram (536870914 : Nat) = true ∧ up.chip.up Domain.sup = true ∧
      up.chip.memc.retired.getLsbD (sramPage 536870914) = false ∧ up.chip.bit Reg.chkctl 0 = false ∧ up.chip.bit
      Reg.pmctl 0 = false ∧ (1 : Nat) < (2 : Nat)) ∧
    (up.chip.Inv ∧ ((2 : Nat) = (1 : Nat) ∨ (2 : Nat) = (2 : Nat) ∨ (2 : Nat) = (4 : Nat)) ∧ (536870914 : Nat) % (2
      : Nat) = (0 : Nat) ∧ inSram (536870914 : Nat) = true ∧ up.chip.up Domain.sup = true ∧
      up.chip.memc.retired.getLsbD (sramPage 536870914) = false ∧ up.chip.bit Reg.chkctl 0 = false ∧ up.chip.bit
      Reg.pmctl 0 = false ∧ ((536870912 : Nat) < (536870914 : Nat) ∨ (536870914 : Nat) + (2 : Nat) ≤ (536870912 :
      Nat))) :=
  ⟨⟨inv_of (by decide +kernel), by decide +kernel, by decide +kernel, by decide +kernel, by decide +kernel,
      by decide +kernel, by decide +kernel, by decide +kernel, by decide +kernel⟩,
   ⟨inv_of (by decide +kernel), by decide +kernel, by decide +kernel, by decide +kernel, by decide +kernel,
      by decide +kernel, by decide +kernel, by decide +kernel, by decide +kernel⟩⟩

/-- States and operands that meet the hypotheses of `period_instants_and_vertex` (period instants in order), clause
by clause. -/
theorem test_period_instants_in_order_applies :
    (w9.chip.up Domain.tgrid = true ∧ w9.chip.tg.instant = Instant.vertex) ∧
    (w10.chip.up Domain.tgrid = true ∧ w10.chip.tg.instant = Instant.uplink) ∧
    (w11.chip.up Domain.tgrid = true ∧ w11.chip.tg.instant = Instant.deadline) :=
  ⟨⟨by decide +kernel, by decide +kernel⟩,
   ⟨by decide +kernel, by decide +kernel⟩,
   ⟨by decide +kernel, by decide +kernel⟩⟩

/-- States and operands that meet the hypotheses of `period_instants_and_vertex` (vertex opens the next period),
clause by clause. -/
theorem test_vertex_opens_the_next_period_applies :
    (w12.chip.up Domain.tgrid = true ∧ w12.chip.tg.instant = Instant.chord ∧ w12.chip.bit Reg.tgctl 1 = false ∧
      w12.chip.tg.pend = none) ∧
    (w13.chip.up Domain.tgrid = true ∧ w13.chip.tg.instant = Instant.chord ∧ w13.chip.bit Reg.tgctl 1 = false ∧
      w13.chip.tg.pend = some (1000, 500, 700) ∧ w13.chip.tg.pendIn = 1) ∧
    (w14.chip.up Domain.tgrid = true ∧ w14.chip.tg.instant = Instant.chord ∧ w14.chip.bit Reg.tgctl 1 = false ∧
      w14.chip.tg.pend = some (1000, 500, 700) ∧ w14.chip.tg.pendIn = 2) :=
  ⟨⟨by decide +kernel, by decide +kernel, by decide +kernel, by decide +kernel⟩,
   ⟨by decide +kernel, by decide +kernel, by decide +kernel, by decide +kernel, by decide +kernel⟩,
   ⟨by decide +kernel, by decide +kernel, by decide +kernel, by decide +kernel, by decide +kernel⟩⟩

/-- States and operands that meet the hypotheses of `commit_checks_the_staged_period`, clause by clause. -/
theorem test_commit_checks_the_staged_period_applies :
    (MayWrite up Master.window Reg.percommit ∧ BitVec.getLsbD (1 : Word) (0 : Nat) = true ∧ 2000 = up.chip.rf
      Reg.period 0 15 ∧ 850 = up.chip.rf Reg.updl 0 15 ∧ 1400 = up.chip.rf Reg.chordr 0 15 ∧ (up.chip.tg.pend = none
      ∧ 1000 ≤ 2000 ∧ 2000 ≤ 20000 ∧ 180 + 40 * up.chip.chainLen ≤ 850 ∧ 850 + 180 ≤ 1400 ∧ 1400 + 40 + 35 *
      up.chip.chainLen ≤ 2000 ∧ ((∃ (x : Tile), x ∈ up.chip.tiles ∧ x.loaded = true) → up.chip.rf Reg.wcsr 0 16 ≤ 4
      * (1400 - 850)) ∧ (up.chip.bit Reg.tgctl 1 = true → 100000000 % 2000 = 0))) ∧
    (MayWrite w14 Master.window Reg.percommit ∧ BitVec.getLsbD (1 : Word) (0 : Nat) = true ∧ 2000 = w14.chip.rf
      Reg.period 0 15 ∧ 850 = w14.chip.rf Reg.updl 0 15 ∧ 1400 = w14.chip.rf Reg.chordr 0 15 ∧ (¬(w14.chip.tg.pend =
      none ∧ 1000 ≤ 2000 ∧ 2000 ≤ 20000 ∧ 180 + 40 * w14.chip.chainLen ≤ 850 ∧ 850 + 180 ≤ 1400 ∧ 1400 + 40 + 35 *
      w14.chip.chainLen ≤ 2000 ∧ ((∃ (x : Tile), x ∈ w14.chip.tiles ∧ x.loaded = true) → w14.chip.rf Reg.wcsr 0 16 ≤
      4 * (1400 - 850)) ∧ (w14.chip.bit Reg.tgctl 1 = true → 100000000 % 2000 = 0)))) :=
  ⟨⟨by decide +kernel, by decide +kernel, by decide +kernel, by decide +kernel, by decide +kernel,
      by decide +kernel⟩,
   ⟨by decide +kernel, by decide +kernel, by decide +kernel, by decide +kernel, by decide +kernel,
      by decide +kernel⟩⟩

/-- States and operands that meet the hypotheses of `commit_while_pending_refused`, clause by clause. -/
theorem test_commit_while_pending_refused_applies :
    (w14.chip.Inv ∧ MayWrite w14 Master.window Reg.percommit ∧ BitVec.getLsbD (1 : Word) (0 : Nat) = true ∧
      w14.chip.tg.pend.isSome = true) :=
  ⟨inv_of (by decide +kernel), by decide +kernel, by decide +kernel, by decide +kernel⟩

/-- States and operands that meet the hypotheses of `pll_and_tsync` (pll loss and return), clause by clause. -/
theorem test_pll_loss_and_return_applies :
    (w14.chip.up Domain.tgrid = true ∧ w14.chip.tg.fallback = true) ∧
    (w9.chip.up Domain.tgrid = true ∧ w9.chip.tg.locked = true) :=
  ⟨⟨by decide +kernel, by decide +kernel⟩,
   ⟨by decide +kernel, by decide +kernel⟩⟩

/-- States and operands that meet the hypotheses of `pll_and_tsync` (tsync edges), clause by clause. -/
theorem test_tsync_edges_applies :
    (w15.chip.Inv ∧ w15.chip.up Domain.tgrid = true ∧ w15.chip.bit Reg.tgctl 0 = true ∧ (w15.chip.input 2).unstable
      = false ∧ w15.chip.tg.ppsArmed = false) ∧
    (w16.chip.Inv ∧ w16.chip.up Domain.tgrid = true ∧ w16.chip.bit Reg.tgctl 0 = true ∧ (w16.chip.input 2).unstable
      = false ∧ w16.chip.tg.ppsArmed = true ∧ w16.chip.tg.ppsLast + 100000000 ≤ w16.chip.tg.tick + w16.chip.rf
      Reg.ppswin 0 20 ∧ w16.chip.tg.tick ≤ w16.chip.tg.ppsLast + 100000000 + w16.chip.rf Reg.ppswin 0 20) ∧
    (w16.chip.Inv ∧ w16.chip.up Domain.tgrid = true ∧ w16.chip.bit Reg.tgctl 0 = true ∧ w16.chip.tg.ppsValid = true)
      ∧
    (w17.chip.Inv ∧ w17.chip.up Domain.tgrid = true ∧ w17.chip.bit Reg.tgctl 0 = true ∧ (w17.chip.input 2).unstable
      = false ∧ w17.chip.tg.ppsArmed = true ∧ (w17.chip.tg.tick + w17.chip.rf Reg.ppswin 0 20 < w17.chip.tg.ppsLast
      + 100000000 ∨ w17.chip.tg.ppsLast + 100000000 + w17.chip.rf Reg.ppswin 0 20 < w17.chip.tg.tick)) :=
  ⟨⟨inv_of (by decide +kernel), by decide +kernel, by decide +kernel, by decide +kernel, by decide +kernel⟩,
   ⟨inv_of (by decide +kernel), by decide +kernel, by decide +kernel, by decide +kernel, by decide +kernel,
      by decide +kernel, by decide +kernel⟩,
   ⟨inv_of (by decide +kernel), by decide +kernel, by decide +kernel, by decide +kernel⟩,
   ⟨inv_of (by decide +kernel), by decide +kernel, by decide +kernel, by decide +kernel, by decide +kernel,
      by decide +kernel⟩⟩

/-- States and operands that meet the hypotheses of `system_reset_sources`, clause by clause. -/
theorem test_system_reset_sources_applies :
    (up.chip.Inv ∧ MayWrite up Master.window Reg.swrst ∧ Domain.sup ≠ Domain.aon) ∧
    (up.chip.Inv ∧ MayWrite up Master.window Reg.swrst ∧ up.chip.shelfReq = none) ∧
    (up.chip.Inv ∧ MayWrite up Master.window Reg.swrst ∧ (5 : Word) ≠ (53733 : Word)) ∧
    (up.chip.Inv ∧ up.chip.pwr.powered.aon = true ∧ up.chip.pwr.cur ≠ ShelfState.ship ∧ up.chip.pwr.pfail = false ∧
      up.chip.pwr.boot ≠ BootPhase.fuseLoad ∧ up.chip.raised = [] ∧ Domain.sup ≠ Domain.aon) ∧
    (up.chip.Inv ∧ up.chip.pwr.powered.aon = true ∧ up.chip.pwr.cur ≠ ShelfState.ship ∧ up.chip.pwr.pfail = false ∧
      up.chip.pwr.boot ≠ BootPhase.fuseLoad ∧ up.chip.raised = [] ∧ up.chip.shelfReq = none) ∧
    (shelfUp.chip.Inv ∧ shelfUp.chip.pwr.vinLow = true ∧ shelfUp.chip.pwr.pfail = false ∧ shelfUp.chip.booted = true
      ∧ Domain.hub ≠ Domain.aon) ∧
    (shelfUp.chip.Inv ∧ shelfUp.chip.pwr.vinLow = true ∧ shelfUp.chip.pwr.pfail = false ∧ shelfUp.chip.booted = true
      ∧ shelfUp.chip.shelfReq = none) ∧
    (shelfUp.chip.Inv ∧ MayWrite shelfUp Master.window Reg.swrst ∧ (536870912 : Nat) < (553648128 : Nat)) ∧
    (shelfUp.chip.Inv ∧ shelfUp.chip.pwr.powered.aon = true ∧ shelfUp.chip.pwr.cur ≠ ShelfState.ship ∧
      shelfUp.chip.pwr.pfail = false ∧ shelfUp.chip.pwr.boot ≠ BootPhase.fuseLoad ∧ shelfUp.chip.raised = [] ∧
      (536870912 : Nat) < (553648128 : Nat)) ∧
    (shelfUp.chip.Inv ∧ shelfUp.chip.pwr.vinLow = true ∧ shelfUp.chip.pwr.pfail = false ∧ shelfUp.chip.booted = true
      ∧ (536870912 : Nat) < (553648128 : Nat)) ∧
    (pf.chip.Inv ∧ pf.chip.pwr.pfail = true ∧ pf.chip.pwr.pfFlush = false ∧ Domain.hub ≠ Domain.aon) ∧
    (pf.chip.Inv ∧ pf.chip.pwr.pfail = true ∧ pf.chip.pwr.pfFlush = false ∧ (536870912 : Nat) < (553648128 : Nat)) ∧
    (pf.chip.Inv ∧ pf.chip.pwr.pfail = true ∧ pf.chip.pwr.pfFlush = false ∧ pf.chip.shelfReq = none) :=
  ⟨⟨inv_of (by decide +kernel), by decide +kernel, by decide +kernel⟩,
   ⟨inv_of (by decide +kernel), by decide +kernel, by decide +kernel⟩,
   ⟨inv_of (by decide +kernel), by decide +kernel, by decide +kernel⟩,
   ⟨inv_of (by decide +kernel), by decide +kernel, by decide +kernel, by decide +kernel, by decide +kernel,
      by decide +kernel, by decide +kernel⟩,
   ⟨inv_of (by decide +kernel), by decide +kernel, by decide +kernel, by decide +kernel, by decide +kernel,
      by decide +kernel, by decide +kernel⟩,
   ⟨inv_of (by decide +kernel), by decide +kernel, by decide +kernel, by decide +kernel, by decide +kernel⟩,
   ⟨inv_of (by decide +kernel), by decide +kernel, by decide +kernel, by decide +kernel, by decide +kernel⟩,
   ⟨inv_of (by decide +kernel), by decide +kernel, by decide +kernel⟩,
   ⟨inv_of (by decide +kernel), by decide +kernel, by decide +kernel, by decide +kernel, by decide +kernel,
      by decide +kernel, by decide +kernel⟩,
   ⟨inv_of (by decide +kernel), by decide +kernel, by decide +kernel, by decide +kernel, by decide +kernel⟩,
   ⟨inv_of (by decide +kernel), by decide +kernel, by decide +kernel, by decide +kernel⟩,
   ⟨inv_of (by decide +kernel), by decide +kernel, by decide +kernel, by decide +kernel⟩,
   ⟨inv_of (by decide +kernel), by decide +kernel, by decide +kernel, by decide +kernel⟩⟩

/-- States and operands that meet the hypotheses of `supplies_and_power_fail` (supply thresholds), clause by clause.
-/
theorem test_supply_thresholds_applies :
    (s0.chip.pwr.powered.aon = false) ∧
    (shelfUp.chip.pwr.powered.aon = true ∧ (536870912 : Nat) ≤ (536870912 : Nat) ∧ (536870912 : Nat) < (537133056 :
      Nat)) ∧
    (shelfUp.chip.pwr.powered.aon = true ∧ shelfUp.chip.shelfReq = none) :=
  ⟨by decide +kernel,
   ⟨by decide +kernel, by decide +kernel, by decide +kernel⟩,
   ⟨by decide +kernel, by decide +kernel⟩⟩

/-- States and operands that meet the hypotheses of `supplies_and_power_fail` (power fail holds the domains), clause
by clause. -/
theorem test_power_fail_holds_the_domains_applies :
    (up.chip.booted = true ∧ up.chip.up Domain.nvm = true ∧ up.chip.recd.ready = true) ∧
    (w19.chip.booted = true ∧ w19.chip.up Domain.nvm = true ∧ w19.chip.recd.ready = true ∧ w19.chip.up Domain.sup =
      false ∧ w19.chip.raised = []) :=
  ⟨⟨by decide +kernel, by decide +kernel, by decide +kernel⟩,
   ⟨by decide +kernel, by decide +kernel, by decide +kernel, by decide +kernel, by decide +kernel⟩⟩

/-- States and operands that meet the hypotheses of `boot_stages_and_loader` (boot stages), clause by clause. -/
theorem test_boot_stages_applies :
    (w20.chip.pwr.boot = BootPhase.fuseLoad ∧ w20.chip.pwr.vinGood = false) ∧
    (w21.chip.pwr.boot = BootPhase.waitVin ∧ w21.chip.pwr.powered.aon = true ∧ w21.chip.pwr.pfail = false ∧
      w21.chip.pwr.resetLow = false) ∧
    (w21.chip.pwr.boot = BootPhase.waitVin ∧ w21.chip.pwr.vinGood = true ∧ w21.chip.pwr.pfail = false) ∧
    (w23.chip.Inv ∧ w23.chip.pwr.boot = BootPhase.powerLock) ∧
    (MayWrite w27 Master.window Reg.bootdone ∧ w27.chip.pwr.boot = BootPhase.app ∧ w27.chip.pwr.wakeEvent = false) ∧
    (MayWrite w27 Master.window Reg.bootdone ∧ (5 : Word) ≠ (45264 : Word)) ∧
    (MayWrite w28 Master.window Reg.bootdone ∧ w28.chip.pwr.boot = BootPhase.app ∧ w28.chip.pwr.wakeEvent = true) :=
  ⟨⟨by decide +kernel, by decide +kernel⟩,
   ⟨by decide +kernel, by decide +kernel, by decide +kernel, by decide +kernel⟩,
   ⟨by decide +kernel, by decide +kernel, by decide +kernel⟩,
   ⟨inv_of (by decide +kernel), by decide +kernel⟩,
   ⟨by decide +kernel, by decide +kernel, by decide +kernel⟩,
   ⟨by decide +kernel, by decide +kernel⟩,
   ⟨by decide +kernel, by decide +kernel, by decide +kernel⟩⟩

/-- States and operands that meet the hypotheses of `watchdog_and_domain_resets` (supervisor watchdog), clause by
clause. -/
theorem test_supervisor_watchdog_applies :
    (w30.chip.Inv ∧ MayWrite w30 Master.window Reg.wdtkick ∧ (6 : Word) ≠ (50085 : Word)) ∧
    (w30.chip.Inv ∧ (Instr.watchdogExpiry = Instr.drst Master.window (3521445952 : Word) ∧ MayWrite w30
      Master.window Reg.drst ∨ Instr.watchdogExpiry = Instr.watchdogExpiry ∧ w30.chip.pwr.wdtRun = true ∧
      w30.chip.up Domain.sup = true)) :=
  ⟨⟨inv_of (by decide +kernel), by decide +kernel, by decide +kernel⟩,
   ⟨inv_of (by decide +kernel), by decide +kernel⟩⟩

/-- States and operands that meet the hypotheses of `watchdog_and_domain_resets` (domain resets), clause by clause.
-/
theorem test_domain_resets_applies :
    (up.chip.Inv ∧ MayWrite up Master.window Reg.drst ∧ fld (6 : Word) (16 : Nat) (16 : Nat) ≠ (53733 : Nat)) ∧
    (up.chip.Inv ∧ MayWrite up Master.window Reg.drst ∧ up.chip.pwr.powered.ifc = true ∧ blockDom Reg.gpevst =
      Domain.ifc) ∧
    (up.chip.Inv ∧ MayWrite up Master.window Reg.drst ∧ up.chip.pwr.powered.afe = true ∧ up.chip.gate.gst =
      Gst.open_ ∧ up.chip.confbOpen = true) ∧
    (w31.chip.Inv ∧ MayWrite w31 Master.window Reg.drst ∧ w31.chip.pwr.powered.afe = true ∧ w31.chip.gate.gst ≠
      Gst.open_ ∧ w31.chip.gate.gst ≠ Gst.check) ∧
    (w31.chip.Inv ∧ MayWrite w31 Master.window Reg.drst ∧ w31.chip.pwr.powered.nvm = true ∧ w31.chip.recd.flBusy =
      true) ∧
    (w32.chip.Inv ∧ MayWrite w32 Master.window Reg.drst ∧ w32.chip.booted = true ∧ w32.chip.up Domain.ifc = false ∧
      w32.chip.pwr.powered.ifc = true) :=
  ⟨⟨inv_of (by decide +kernel), by decide +kernel, by decide +kernel⟩,
   ⟨inv_of (by decide +kernel), by decide +kernel, by decide +kernel, by decide +kernel⟩,
   ⟨inv_of (by decide +kernel), by decide +kernel, by decide +kernel, by decide +kernel, by decide +kernel⟩,
   ⟨inv_of (by decide +kernel), by decide +kernel, by decide +kernel, by decide +kernel, by decide +kernel⟩,
   ⟨inv_of (by decide +kernel), by decide +kernel, by decide +kernel, by decide +kernel⟩,
   ⟨inv_of (by decide +kernel), by decide +kernel, by decide +kernel, by decide +kernel, by decide +kernel⟩⟩

/-- States and operands that meet the hypotheses of `power_requests_fault_clear_and_ship` (power requests), clause
by clause. -/
theorem test_power_requests_applies :
    (up.chip.Inv ∧ MayWrite up Master.window Reg.pwrctl ∧ BitVec.getLsbD (15 : Word) (0 : Nat) = true ∧
      BitVec.getLsbD (15 : Word) (1 : Nat) = true ∧ BitVec.getLsbD (15 : Word) (2 : Nat) = true) ∧
    (up.chip.Inv ∧ MayWrite up Master.window Reg.pwrctl ∧ (0 : Word) &&& (7 : Word) = (0 : Word) ∧ up.chip.allOff =
      true) ∧
    (w33.chip.Inv ∧ MayWrite w33 Master.window Reg.pwrctl ∧ (0 : Word) &&& (7 : Word) = (0 : Word) ∧ w33.chip.allOff
      = false ∧ BitVec.getLsbD w33.chip.pwr.request 0 = true) ∧
    (w34.chip.Inv ∧ MayWrite w34 Master.window Reg.pwrctl ∧ w34.chip.booted = true ∧ w34.chip.up Domain.hub = false
      ∧ BitVec.getLsbD w34.chip.pwr.request 0 = true) :=
  ⟨⟨inv_of (by decide +kernel), by decide +kernel, by decide +kernel, by decide +kernel, by decide +kernel⟩,
   ⟨inv_of (by decide +kernel), by decide +kernel, by decide +kernel, by decide +kernel⟩,
   ⟨inv_of (by decide +kernel), by decide +kernel, by decide +kernel, by decide +kernel, by decide +kernel⟩,
   ⟨inv_of (by decide +kernel), by decide +kernel, by decide +kernel, by decide +kernel, by decide +kernel⟩⟩

/-- States and operands that meet the hypotheses of `power_requests_fault_clear_and_ship` (fault clear and ship),
clause by clause. -/
theorem test_fault_clear_and_ship_applies :
    (MayWrite up Master.window Reg.fltclr ∧ ((49642 : Word) ≠ (49642 : Word) ∨ up.chip.pwr.latch = false ∨
      up.chip.gate.cause ≠ (0 : BitVec 13))) ∧
    (MayWrite up Master.window Reg.shipctl ∧ up.chip.pwr.cur = ShelfState.standby ∧ (up.chip.input 1).unstable =
      false ∧ (up.chip.input 1).level = false ∧ up.chip.inLevel 1 = false ∧ up.chip.gate.gst = Gst.open_ ∧
      up.chip.up Domain.nvm = true) ∧
    (MayWrite w35 Master.window Reg.fltclr ∧ w35.chip.pwr.latch = true ∧ w35.chip.gate.cause = (0 : BitVec 13) ∧
      w35.chip.periodRuns = false ∧ w35.chip.pwr.cur = ShelfState.faultLatched) ∧
    (MayWrite w35 Master.window Reg.shipctl ∧ w35.chip.Inv ∧ w35.chip.pwr.cur ≠ ShelfState.standby) ∧
    (w36.chip.pwr.cur = ShelfState.ship ∧ w36.chip.pwr.boot = BootPhase.off ∧ w36.chip.pwr.vinGood = true ∧
      w36.chip.pwr.resetLow = false ∧ w36.chip.pwr.pfail = false) :=
  ⟨⟨by decide +kernel, by decide +kernel⟩,
   ⟨by decide +kernel, by decide +kernel, by decide +kernel, by decide +kernel, by decide +kernel,
      by decide +kernel, by decide +kernel⟩,
   ⟨by decide +kernel, by decide +kernel, by decide +kernel, by decide +kernel, by decide +kernel⟩,
   ⟨by decide +kernel, inv_of (by decide +kernel), by decide +kernel⟩,
   ⟨by decide +kernel, by decide +kernel, by decide +kernel, by decide +kernel, by decide +kernel⟩⟩

/-- States and operands that meet the hypotheses of `chain_arrivals`, clause by clause. -/
theorem test_chain_arrivals_applies :
    (w40.chip.up Domain.hub = true ∧ w40.chip.hub.running = true ∧ (w40.chip.chain (2 : Fin 8).val).en = true ∧
      w40.chip.tg.instant = Instant.uplink ∧ (w40.chip.chain (2 : Fin 8).val).frameA = none ∧ (parseUplink (frameCtx
      ((2 : Fin 8).val) true w40.chip.tg.perseq) goodUp).ok = true) ∧
    (w41.chip.up Domain.hub = true ∧ w41.chip.hub.running = true ∧ (w41.chip.chain (2 : Fin 8).val).en = true ∧
      w41.chip.tg.instant = Instant.uplink ∧ (w41.chip.chain (2 : Fin 8).val).folded = true ∧ (w41.chip.chain (2 :
      Fin 8).val).frameB = none ∧ (parseUplink (frameCtx ((2 : Fin 8).val) true w41.chip.tg.perseq) [(1 : Byte), (2
      : Byte)]).ok = false) ∧
    (w41.chip.up Domain.hub = true ∧ (w41.chip.chain (2 : Fin 8).val).lockA = true) ∧
    (w42.chip.up Domain.hub = true ∧ w42.chip.hub.running = true ∧ (w42.chip.chain (2 : Fin 8).val).dlSent = true ∧
      (w42.chip.chain (2 : Fin 8).val).folded = false) ∧
    (w43.chip.up Domain.hub = true ∧ (w43.chip.chain (2 : Fin 8).val).ranging = some { pos := 1, endB := false, auto := false, launch := some 7 : Ranging } ∧ { pos := (1 : Nat), endB := false, auto := false, launch := some (7 : Nat) : Ranging }.launch = some (7 : Nat) ∧ { pos := (1 : Nat), endB := false, auto := false, launch := some (7 : Nat) : Ranging }.result = none ∧ (4000 : Nat) ≤ (4000 : Nat)) :=
  ⟨⟨by decide +kernel, by decide +kernel, by decide +kernel, by decide +kernel, by decide +kernel,
      by decide +kernel⟩,
   ⟨by decide +kernel, by decide +kernel, by decide +kernel, by decide +kernel, by decide +kernel,
      by decide +kernel, by decide +kernel⟩,
   ⟨by decide +kernel, by decide +kernel⟩,
   ⟨by decide +kernel, by decide +kernel, by decide +kernel, by decide +kernel⟩,
   ⟨by decide +kernel, by decide +kernel, by decide +kernel, by decide +kernel, by decide +kernel⟩⟩

/-- States and operands that meet the hypotheses of `hub_commands`, clause by clause. -/
theorem test_hub_commands_applies :
    (MayWrite busyHub Master.window Reg.hubctl ∧ BitVec.getLsbD (0 : Word) (0 : Nat) = false ∧ busyHub.chip.allOff =
      false) ∧
    (MayWrite busyHub Master.window Reg.holdctl) ∧
    (MayWrite busyHub Master.window (Reg.chctl (2 : Fin 8).val) ∧ fld (0 : Word) (4 : Nat) (5 : Nat) ≤ (16 : Nat) ∧
      fld (0 : Word) (12 : Nat) (4 : Nat) ≠ (15 : Nat) ∧ (∀ (p : Nat), p < 16 → fld (0 : Word) 4 5 ≤ p → p <
      busyHub.chip.npos (2 : Fin 8).val → (busyHub.chip.hslot (16 * (2 : Fin 8).val + p)).sentMode = 0) ∧
      (busyHub.chip.chainLenWith ((2 : Fin 8).val) ((0 : Word) &&& (61937 : Word)) = busyHub.chip.chainLen ∨
      busyHub.chip.lenOk (busyHub.chip.chainLenWith ((2 : Fin 8).val) ((0 : Word) &&& (61937 : Word))) = true) ∧
      BitVec.getLsbD (0 : Word) (1 : Nat) = false ∧ (busyHub.chip.chain (2 : Fin 8).val).folded = true) ∧
    (MayWrite busyHub Master.window (Reg.slotcfg (3 : Fin 128).val) ∧ fld (0 : Word) 0 4 = fld (busyHub.chip.reg
      (Reg.slotcfg (3 : Fin 128).val)) 0 4) ∧
    (MayWrite busyHub Master.window Reg.mboxctl ∧ busyHub.chip.hub.mboxBusy = true) ∧
    (MayWrite busyHub Master.window Reg.hubctl ∧ (BitVec.getLsbD (67 : Word) 0 = true ∨ busyHub.chip.allOff = true))
      ∧
    (MayWrite busyHub Master.window (Reg.chctl (2 : Fin 8).val) ∧ fld (67 : Word) (4 : Nat) (5 : Nat) ≤ (16 : Nat) ∧
      fld (67 : Word) (12 : Nat) (4 : Nat) ≠ (15 : Nat) ∧ (∀ (p : Nat), p < 16 → fld (67 : Word) 4 5 ≤ p → p <
      busyHub.chip.npos (2 : Fin 8).val → (busyHub.chip.hslot (16 * (2 : Fin 8).val + p)).sentMode = 0) ∧
      (busyHub.chip.chainLenWith ((2 : Fin 8).val) ((67 : Word) &&& (61937 : Word)) = busyHub.chip.chainLen ∨
      busyHub.chip.lenOk (busyHub.chip.chainLenWith ((2 : Fin 8).val) ((67 : Word) &&& (61937 : Word))) = true) ∧
      BitVec.getLsbD (67 : Word) 1 = (busyHub.chip.chain (2 : Fin 8).val).folded) ∧
    (MayWrite busyHub Master.window (Reg.slotcfg (3 : Fin 128).val) ∧ fld (67 : Word) 0 4 ≠ fld (busyHub.chip.reg
      (Reg.slotcfg (3 : Fin 128).val)) 0 4 ∧ (busyHub.chip.hslot (3 : Fin 128).val).sentMode ≠ 0) ∧
    (MayWrite busyHub Master.window (Reg.chctl (2 : Fin 8).val) ∧ ((16 : Nat) < fld (321 : Word) (4 : Nat) (5 : Nat)
      ∨ fld (321 : Word) (12 : Nat) (4 : Nat) = (15 : Nat))) ∧
    (MayWrite w40 Master.window (Reg.chctl (2 : Fin 8).val) ∧ fld (83 : Word) (4 : Nat) (5 : Nat) ≤ (16 : Nat) ∧ fld
      (83 : Word) (12 : Nat) (4 : Nat) ≠ (15 : Nat) ∧ (∀ (p : Nat), p < 16 → fld (83 : Word) 4 5 ≤ p → p <
      w40.chip.npos (2 : Fin 8).val → (w40.chip.hslot (16 * (2 : Fin 8).val + p)).sentMode = 0) ∧
      (w40.chip.chainLenWith ((2 : Fin 8).val) ((83 : Word) &&& (61937 : Word)) = w40.chip.chainLen ∨ w40.chip.lenOk
      (w40.chip.chainLenWith ((2 : Fin 8).val) ((83 : Word) &&& (61937 : Word))) = true) ∧ BitVec.getLsbD (83 :
      Word) (1 : Nat) = true ∧ (w40.chip.chain (2 : Fin 8).val).folded = false) ∧
    (MayWrite w40 Master.window Reg.mboxctl ∧ BitVec.getLsbD (16777251 : Word) (24 : Nat) = true ∧
      w40.chip.hub.mboxBusy = false ∧ fld (16777251 : Word) (8 : Nat) (3 : Nat) < (4 : Nat) ∧ w40.chip.bit
      (Reg.chctl (fld (16777251 : Word) 4 3)) 0 = true ∧ fld (16777251 : Word) 0 4 < w40.chip.npos (fld (16777251 :
      Word) 4 3) ∧ w40.chip.Inv) :=
  ⟨⟨by decide +kernel, by decide +kernel, by decide +kernel⟩,
   by decide +kernel,
   ⟨by decide +kernel, by decide +kernel, by decide +kernel, by decide +kernel, by decide +kernel,
      by decide +kernel, by decide +kernel⟩,
   ⟨by decide +kernel, by decide +kernel⟩,
   ⟨by decide +kernel, by decide +kernel⟩,
   ⟨by decide +kernel, by decide +kernel⟩,
   ⟨by decide +kernel, by decide +kernel, by decide +kernel, by decide +kernel, by decide +kernel,
      by decide +kernel⟩,
   ⟨by decide +kernel, by decide +kernel, by decide +kernel⟩,
   ⟨by decide +kernel, by decide +kernel⟩,
   ⟨by decide +kernel, by decide +kernel, by decide +kernel, by decide +kernel, by decide +kernel,
      by decide +kernel, by decide +kernel⟩,
   ⟨by decide +kernel, by decide +kernel, by decide +kernel, by decide +kernel, by decide +kernel,
      by decide +kernel, inv_of (by decide +kernel)⟩⟩

/-- States and operands that meet the hypotheses of `chord_records_and_sealed_frames` (chord record of a slot),
clause by clause. -/
theorem test_chord_record_of_a_slot_applies :
    (adm.slotType 3 ≠ 0 ∧ (adm.hslot 3).st = SlotState.admitted) ∧
    ([(0 : Byte), (255 : Byte), (255 : Byte), (127 : Byte), (1 : Byte), (2 : Byte)].length = (6 : Nat) ∧
      BitVec.getLsbD ([(0 : Byte), (255 : Byte), (255 : Byte), (127 : Byte), (1 : Byte), (2 : Byte)].getD (0 : Nat)
      (0 : Byte)) (3 : Nat) = false) ∧
    ((adm.slotType 4 = 0 ∨ (adm.hslot 4).st ≠ SlotState.admitted)) :=
  ⟨⟨by decide +kernel, by decide +kernel⟩,
   ⟨by decide +kernel, by decide +kernel⟩,
   by decide +kernel⟩

/-- States and operands that meet the hypotheses of `loop_configuration_and_injection` (loop configuration), clause
by clause. -/
theorem test_loop_configuration_applies :
    (up.chip.Inv ∧ MayWrite up Master.window (Reg.lnCfg (1 : Fin 4).val) ∧ up.chip.cfgRefused (1 : Fin 4).val (1 :
      Word) = false ∧ BitVec.getLsbD (1 : Word) (0 : Nat) = true ∧ up.chip.loopEn (1 : Fin 4).val = false) ∧
    (up.chip.Inv ∧ MayWrite up Master.window (Reg.lnCfg (1 : Fin 4).val) ∧ up.chip.cfgRefused (1 : Fin 4).val (4 :
      Word) = false ∧ BitVec.getLsbD (4 : Word) (0 : Nat) = false) ∧
    (up.chip.Inv ∧ MayWrite up Master.window (Reg.lnCfg (0 : Fin 4).val) ∧ up.chip.cfgRefused (0 : Fin 4).val (5 :
      Word) = true) ∧
    (w44.chip.Inv ∧ MayWrite w44 Master.window (Reg.lnCfg (2 : Fin 4).val) ∧ w44.chip.cfgRefused (2 : Fin 4).val
      (129 : Word) = false ∧ BitVec.getLsbD (129 : Word) (0 : Nat) = true ∧ w44.chip.loopEn (2 : Fin 4).val = true)
      :=
  ⟨⟨inv_of (by decide +kernel), by decide +kernel, by decide +kernel, by decide +kernel, by decide +kernel⟩,
   ⟨inv_of (by decide +kernel), by decide +kernel, by decide +kernel, by decide +kernel⟩,
   ⟨inv_of (by decide +kernel), by decide +kernel, by decide +kernel⟩,
   ⟨inv_of (by decide +kernel), by decide +kernel, by decide +kernel, by decide +kernel, by decide +kernel⟩⟩

/-- States and operands that meet the hypotheses of `loop_configuration_and_injection` (coefficients injection and
capture), clause by clause. -/
theorem test_coefficients_injection_and_capture_applies :
    (up.chip.Inv ∧ MayWrite up Master.window Reg.coefcmt ∧ BitVec.getLsbD (1 : Word) (0 : Nat) = true) ∧
    (up.chip.Inv ∧ MayWrite up Master.window Reg.injctl ∧ BitVec.getLsbD (1 : Word) (0 : Nat) = true ∧
      up.chip.loop.inj.run = false ∧ up.chip.bit Reg.injctl 0 = false) ∧
    (up.chip.Inv ∧ MayWrite up Master.window Reg.capctl ∧ BitVec.getLsbD (1 : Word) (0 : Nat) = true ∧
      up.chip.loop.inj.capRun = false ∧ (up.chip.reg Reg.capbase = (536870912 : Word) ∨ up.chip.reg Reg.capbase =
      (536936448 : Word) ∨ up.chip.reg Reg.capbase = (537001984 : Word) ∨ up.chip.reg Reg.capbase = (537067520 :
      Word))) ∧
    (w45.chip.Inv ∧ MayWrite w45 Master.window Reg.capctl ∧ BitVec.getLsbD (1 : Word) (0 : Nat) = true ∧
      w45.chip.loop.inj.capRun = false ∧ BitVec.toNat (w45.chip.reg Reg.capbase) % 65536 ≠ 0) ∧
    (w46.chip.Inv ∧ MayWrite w46 Master.window Reg.injctl ∧ BitVec.getLsbD (0 : Word) (0 : Nat) = false ∧
      w46.chip.loop.inj.run = true) :=
  ⟨⟨inv_of (by decide +kernel), by decide +kernel, by decide +kernel⟩,
   ⟨inv_of (by decide +kernel), by decide +kernel, by decide +kernel, by decide +kernel, by decide +kernel⟩,
   ⟨inv_of (by decide +kernel), by decide +kernel, by decide +kernel, by decide +kernel, by decide +kernel⟩,
   ⟨inv_of (by decide +kernel), by decide +kernel, by decide +kernel, by decide +kernel, by decide +kernel⟩,
   ⟨inv_of (by decide +kernel), by decide +kernel, by decide +kernel, by decide +kernel⟩⟩

/-- States and operands that meet the hypotheses of `tiles_and_takeover` (tile commands), clause by clause. -/
theorem test_tile_commands_applies :
    (w47.chip.Inv ∧ MayWrite w47 Master.window Reg.tilectl ∧ w47.chip.fo.fo = FoState.dual) ∧
    (w47.chip.Inv ∧ w47.chip.up Domain.hub = true ∧ (w47.chip.tile (1 : Fin 2).val).loadBusy = true ∧ w47.chip.rf
      (Reg.tnPlen (1 : Fin 2).val) 0 14 ≤ 8192 ∧ (w47.chip.tile (1 : Fin 2).val).ready = false) ∧
    (w48.chip.Inv ∧ MayWrite w48 Master.window Reg.tilectl ∧ w48.chip.fo.fo = FoState.single) ∧
    (w49.chip.Inv ∧ MayWrite w49 Master.window Reg.tilectl ∧ w49.chip.fo.fo = FoState.hold) ∧
    (w49.chip.Inv ∧ MayWrite w49 Master.window (Reg.tnArm (0 : Fin 2).val) ∧ w49.chip.up (tileDom (0 : Fin 2).val) =
      true ∧ (w49.chip.tile (0 : Fin 2).val).loadBusy = false ∧ (w49.chip.fo.fo = FoState.hold ∨ w49.chip.fo.act ≠
      (0 : Fin 2))) ∧
    (w50.chip.Inv ∧ w50.chip.up Domain.hub = true ∧ w50.chip.fo.fo = FoState.takeover ∧ w50.chip.fo.firstRun = true
      ∧ w50.chip.fo.mirrorOk = none) :=
  ⟨⟨inv_of (by decide +kernel), by decide +kernel, by decide +kernel⟩,
   ⟨inv_of (by decide +kernel), by decide +kernel, by decide +kernel, by decide +kernel, by decide +kernel⟩,
   ⟨inv_of (by decide +kernel), by decide +kernel, by decide +kernel⟩,
   ⟨inv_of (by decide +kernel), by decide +kernel, by decide +kernel⟩,
   ⟨inv_of (by decide +kernel), by decide +kernel, by decide +kernel, by decide +kernel, by decide +kernel⟩,
   ⟨inv_of (by decide +kernel), by decide +kernel, by decide +kernel, by decide +kernel, by decide +kernel⟩⟩

/-- States and operands that meet the hypotheses of `tiles_and_takeover` (tile failure and takeover), clause by
clause. -/
theorem test_tile_failure_and_takeover_applies :
    (runT.chip.Inv ∧ runT.chip.up Domain.hub = true ∧ (runT.chip.tile (0 : Fin 2).val).running = true ∧
      runT.chip.tg.instant = Instant.deadline ∧ (Instr.tileWatchdog (0 : Fin 2) = Instr.tileSelfDiagnosisFailure (0
      : Fin 2) (5 : Fin 8) ∨ Instr.tileWatchdog (0 : Fin 2) = Instr.tileWatchdog (0 : Fin 2) ∧ (5 : Fin 8) = (5 :
      Fin 8))) ∧
    (x52.Inv ∧ x52.fo.fo = FoState.dual ∧ (x52.tile (1 - (0 : Fin 2).val)).sby = true) ∧
    (x53.Inv ∧ x53.fo.fo = FoState.dual ∧ (x53.tile (1 - (0 : Fin 2).val)).sby = false) :=
  ⟨⟨inv_of (by decide +kernel), by decide +kernel, by decide +kernel, by decide +kernel, by decide +kernel⟩,
   ⟨inv_of (by decide +kernel), by decide +kernel, by decide +kernel⟩,
   ⟨inv_of (by decide +kernel), by decide +kernel, by decide +kernel⟩⟩

/-- States and operands that meet the hypotheses of `allocation_estimation_and_charge` (allocation and estimation
commands), clause by clause. -/
theorem test_allocation_and_estimation_commands_applies :
    (MayWrite g1 Master.window Reg.dseed) ∧
    (g1.chip.up Domain.hub = true ∧ g1.chip.rf Reg.rotiv 0 16 ≠ 0) ∧
    (g1.chip.up Domain.hub = true ∧ g1.chip.alloc.shdTicks.getD (1 : Fin 4).val 0 ≠ 0) ∧
    (MayWrite g1 Master.window Reg.qadjcmt ∧ BitVec.getLsbD (1 : Word) (0 : Nat) = true ∧ g1.chip.est.adj = none ∧
      g1.chip.periodRuns = true) ∧
    (MayWrite g1 Master.window Reg.evraise ∧ fld (1 : Word) (0 : Nat) (5 : Nat) ≤ (4 : Nat)) ∧
    (MayWrite g1 (Master.tile (0 : Fin 2)) Reg.evraise ∧ (4 : Nat) < fld (773 : Word) (0 : Nat) (5 : Nat)) ∧
    (MayWrite w54 (Master.tile (0 : Fin 2)) Reg.qadjcmt ∧ BitVec.getLsbD (773 : Word) (0 : Nat) = true ∧
      w54.chip.est.adj.isSome = true) ∧
    (MayWrite w55 (Master.tile (0 : Fin 2)) (Reg.lnDtot (1 : Fin 4).val)) ∧
    (MayWrite w55 (Master.tile (0 : Fin 2)) Reg.fechip) :=
  ⟨by decide +kernel,
   ⟨by decide +kernel, by decide +kernel⟩,
   ⟨by decide +kernel, by decide +kernel⟩,
   ⟨by decide +kernel, by decide +kernel, by decide +kernel, by decide +kernel⟩,
   ⟨by decide +kernel, by decide +kernel⟩,
   ⟨by decide +kernel, by decide +kernel⟩,
   ⟨by decide +kernel, by decide +kernel, by decide +kernel⟩,
   by decide +kernel,
   by decide +kernel⟩

/-- States and operands that meet the hypotheses of `allocation_estimation_and_charge` (charge counting), clause by
clause. -/
theorem test_charge_counting_applies :
    (x56.Inv ∧ x56.est.slots.length = 128 ∧ (-(2 : Int) ^ 63 ≤ (x56.eslotSt (3 : Fin 128).val).q - if (if (x56.hslot
      (3 : Fin 128).val).fresh = true ∨ (x56.hslot (3 : Fin 128).val).age ≤ 3 then (x56.hslot (3 : Fin
      128).val).istg else (0 : Int)) < (0 : Int) then ((if (x56.hslot (3 : Fin 128).val).fresh = true ∨ (x56.hslot
      (3 : Fin 128).val).age ≤ 3 then (x56.hslot (3 : Fin 128).val).istg else (0 : Int)) * ↑x56.tg.period *
      ↑(BitVec.toNat (x56.reg (Reg.etas (x56.chem (3 : Fin 128).val))))).tdiv (65536 : Int) else (if (x56.hslot (3 :
      Fin 128).val).fresh = true ∨ (x56.hslot (3 : Fin 128).val).age ≤ 3 then (x56.hslot (3 : Fin 128).val).istg
      else (0 : Int)) * ↑x56.tg.period) ∧ (((x56.eslotSt (3 : Fin 128).val).q - if (if (x56.hslot (3 : Fin
      128).val).fresh = true ∨ (x56.hslot (3 : Fin 128).val).age ≤ 3 then (x56.hslot (3 : Fin 128).val).istg else (0
      : Int)) < (0 : Int) then ((if (x56.hslot (3 : Fin 128).val).fresh = true ∨ (x56.hslot (3 : Fin 128).val).age ≤
      3 then (x56.hslot (3 : Fin 128).val).istg else (0 : Int)) * ↑x56.tg.period * ↑(BitVec.toNat (x56.reg (Reg.etas
      (x56.chem (3 : Fin 128).val))))).tdiv (65536 : Int) else (if (x56.hslot (3 : Fin 128).val).fresh = true ∨
      (x56.hslot (3 : Fin 128).val).age ≤ 3 then (x56.hslot (3 : Fin 128).val).istg else (0 : Int)) *
      ↑x56.tg.period) ≤ (2 : Int) ^ 63 - (1 : Int))) ∧
    (x57.Inv ∧ x57.est.slots.length = 128 ∧ (((x57.eslotSt (3 : Fin 128).val).q - if (if (x57.hslot (3 : Fin
      128).val).fresh = true ∨ (x57.hslot (3 : Fin 128).val).age ≤ 3 then (x57.hslot (3 : Fin 128).val).istg else (0
      : Int)) < (0 : Int) then ((if (x57.hslot (3 : Fin 128).val).fresh = true ∨ (x57.hslot (3 : Fin 128).val).age ≤
      3 then (x57.hslot (3 : Fin 128).val).istg else (0 : Int)) * ↑x57.tg.period * ↑(BitVec.toNat (x57.reg (Reg.etas
      (x57.chem (3 : Fin 128).val))))).tdiv (65536 : Int) else (if (x57.hslot (3 : Fin 128).val).fresh = true ∨
      (x57.hslot (3 : Fin 128).val).age ≤ 3 then (x57.hslot (3 : Fin 128).val).istg else (0 : Int)) *
      ↑x57.tg.period) < -(2 : Int) ^ 63 ∨ (2 : Int) ^ 63 - (1 : Int) < (x57.eslotSt (3 : Fin 128).val).q - if (if
      (x57.hslot (3 : Fin 128).val).fresh = true ∨ (x57.hslot (3 : Fin 128).val).age ≤ 3 then (x57.hslot (3 : Fin
      128).val).istg else (0 : Int)) < (0 : Int) then ((if (x57.hslot (3 : Fin 128).val).fresh = true ∨ (x57.hslot
      (3 : Fin 128).val).age ≤ 3 then (x57.hslot (3 : Fin 128).val).istg else (0 : Int)) * ↑x57.tg.period *
      ↑(BitVec.toNat (x57.reg (Reg.etas (x57.chem (3 : Fin 128).val))))).tdiv (65536 : Int) else (if (x57.hslot (3 :
      Fin 128).val).fresh = true ∨ (x57.hslot (3 : Fin 128).val).age ≤ 3 then (x57.hslot (3 : Fin 128).val).istg
      else (0 : Int)) * ↑x57.tg.period)) :=
  ⟨⟨inv_of (by decide +kernel), by decide +kernel, by decide +kernel, by decide +kernel⟩,
   ⟨inv_of (by decide +kernel), by decide +kernel, by decide +kernel⟩⟩

/-- States and operands that meet the hypotheses of `allocation_estimation_and_charge` (back end takes each chip
once), clause by clause. -/
theorem test_back_end_takes_each_chip_once_applies :
    (up.chip.up Domain.sup = true ∧ up.chip.up Domain.hub = true ∧ up.chip.rf Reg.fechip 0 16 = up.chip.est.backG) ∧
    (w58.chip.up Domain.sup = true ∧ w58.chip.up Domain.hub = true ∧ w58.chip.rf Reg.fechip 0 16 ≠
      w58.chip.est.backG ∧ w58.chip.policyTile.isSome = true) :=
  ⟨⟨by decide +kernel, by decide +kernel, by decide +kernel⟩,
   ⟨by decide +kernel, by decide +kernel, by decide +kernel, by decide +kernel⟩⟩

/-- States and operands that meet the hypotheses of `margin_planner`, clause by clause. -/
theorem test_margin_planner_applies :
    (w59.chip.up Domain.hub = true ∧ w59.chip.bit Reg.agectl 0 = true ∧ w59.chip.age.winOn = true ∧
      w59.chip.age.periods ≠ 0 ∧ w59.chip.rf Reg.plancfg 0 16 = w59.chip.age.periods ∧ w59.chip.window ≠ 0 ∧
      w59.chip.age.vcore < w59.chip.vceil ∧ Nat.min 255 (256 * w59.chip.age.least.min w59.chip.window /
      w59.chip.window) < w59.chip.slackTarget w59.chip.dieBandSeen) ∧
    (w59.chip.up Domain.hub = true ∧ w59.chip.age.settling = true) ∧
    (w59.chip.up Domain.hub = true ∧ w59.chip.age.inhibit = true) ∧
    (w59.chip.up Domain.hub = true ∧ w59.chip.age.canRun = 1 ∧ w59.chip.age.canDone = false ∧ w59.chip.tg.instant =
      Instant.deadline ∧ 5 ≤ w59.chip.window) ∧
    (w60.chip.up Domain.hub = true ∧ w60.chip.vfloor ≤ w60.chip.vceil ∧ w60.chip.age.stepReq ≠ (0 : Int)) ∧
    (w60.chip.up Domain.hub = true ∧ w60.chip.age.canRun = 2 ∧ w60.chip.age.canDone = false ∧ w60.chip.tg.instant =
      Instant.deadline ∧ 5 ≤ w60.chip.window) :=
  ⟨⟨by decide +kernel, by decide +kernel, by decide +kernel, by decide +kernel, by decide +kernel,
      by decide +kernel, by decide +kernel, by decide +kernel⟩,
   ⟨by decide +kernel, by decide +kernel⟩,
   ⟨by decide +kernel, by decide +kernel⟩,
   ⟨by decide +kernel, by decide +kernel, by decide +kernel, by decide +kernel, by decide +kernel⟩,
   ⟨by decide +kernel, by decide +kernel, by decide +kernel⟩,
   ⟨by decide +kernel, by decide +kernel, by decide +kernel, by decide +kernel, by decide +kernel⟩⟩

/-- States and operands that meet the hypotheses of `thermal_commands`, clause by clause. -/
theorem test_thermal_commands_applies :
    (up.chip.Inv ∧ MayWrite up Master.window (Reg.extt (3 : Fin 128).val)) ∧
    (up.chip.Inv ∧ MayWrite up Master.window (Reg.ppLim (3 : Fin 4).val) ∧ rising3 (197121 : Word) = true) ∧
    (up.chip.Inv ∧ MayWrite up Master.window (Reg.broken (3 : Fin 4).val) ∧ up.chip.therm.slots.length = 128 ∧ (96 :
      Fin 128).val / (32 : Nat) = (3 : Fin 4).val ∧ BitVec.getLsbD (197121 : Word) ((96 : Fin 128).val % (32 : Nat))
      = true) ∧
    (w61.chip.Inv ∧ w61.chip.up Domain.hub = true ∧ (w61.chip.tslotSt (127 : Fin 128).val).exttOk = true ∧
      w61.chip.therm.slots.length = 128) ∧
    (w61.chip.Inv ∧ MayWrite w61 Master.window (Reg.ppLim (3 : Fin 4).val) ∧ rising3 (2147483648 : Word) = false) ∧
    (w61.chip.Inv ∧ w61.chip.up Domain.hub = true ∧ w61.chip.up Domain.afe = true ∧ w61.chip.adc.settled = true ∧
      w61.chip.adcEn 0 = true ∧ w61.chip.adcEn 1 = true) ∧
    (w61.chip.Inv ∧ w61.chip.up Domain.hub = true ∧ w61.chip.bit Reg.thctl 0 = true ∧ w61.chip.tsEn (127 : Fin
      128).val = true ∧ w61.chip.therm.slots.length = 128) ∧
    (th.chip.Inv ∧ MayWrite th Master.window (Reg.broken (3 : Fin 4).val) ∧ th.chip.therm.slots.length = 128 ∧
      (¬((127 : Fin 128).val / (32 : Nat) = (3 : Fin 4).val ∧ BitVec.getLsbD (1 : Word) ((127 : Fin 128).val % (32 :
      Nat)) = true))) ∧
    (th.chip.Inv ∧ th.chip.up Domain.hub = true ∧ th.chip.up Domain.afe = true ∧ th.chip.adc.settled = true ∧
      th.chip.adcEn 0 = true ∧ th.chip.adcEn 1 = true ∧ dieOk (-3520 : Int) = true ∧ dieOk (5 : Int) = true) ∧
    (th.chip.Inv ∧ th.chip.up Domain.hub = true ∧ th.chip.up Domain.afe = true ∧ th.chip.adc.settled = true ∧
      th.chip.adcEn 0 = true ∧ th.chip.adcEn 1 = true ∧ dieOk (-3520 : Int) = true ∧ dieOk (-4000 : Int) = false) :=
  ⟨⟨inv_of (by decide +kernel), by decide +kernel⟩,
   ⟨inv_of (by decide +kernel), by decide +kernel, by decide +kernel⟩,
   ⟨inv_of (by decide +kernel), by decide +kernel, by decide +kernel, by decide +kernel, by decide +kernel⟩,
   ⟨inv_of (by decide +kernel), by decide +kernel, by decide +kernel, by decide +kernel⟩,
   ⟨inv_of (by decide +kernel), by decide +kernel, by decide +kernel⟩,
   ⟨inv_of (by decide +kernel), by decide +kernel, by decide +kernel, by decide +kernel, by decide +kernel,
      by decide +kernel⟩,
   ⟨inv_of (by decide +kernel), by decide +kernel, by decide +kernel, by decide +kernel, by decide +kernel⟩,
   ⟨inv_of (by decide +kernel), by decide +kernel, by decide +kernel, by decide +kernel⟩,
   ⟨inv_of (by decide +kernel), by decide +kernel, by decide +kernel, by decide +kernel, by decide +kernel,
      by decide +kernel, by decide +kernel, by decide +kernel⟩,
   ⟨inv_of (by decide +kernel), by decide +kernel, by decide +kernel, by decide +kernel, by decide +kernel,
      by decide +kernel, by decide +kernel, by decide +kernel⟩⟩

/-- States and operands that meet the hypotheses of `sequencer_commands`, clause by clause. -/
theorem test_sequencer_commands_applies :
    (w62.chip.Inv ∧ MayWrite w62 Master.window Reg.seqcmd ∧ w62.chip.seq.run = false ∧ w62.chip.seqEn = true) ∧
    (w62.chip.Inv ∧ MayWrite w62 Master.window Reg.seqcmd ∧ fld (5 : Word) (16 : Nat) (16 : Nat) ≠ (24220 : Nat)) ∧
    (w62.chip.Inv ∧ MayWrite w62 Master.window Reg.syncset ∧ w62.chip.seq.syncWaits = false) ∧
    (w62.chip.Inv ∧ MayWrite w62 Master.window (Reg.stepMem (511 : Fin 512).val) ∧ w62.chip.seq.run = false) ∧
    (w62.chip.Inv ∧ MayWrite w62 Master.window Reg.seqctl ∧ w62.chip.seq.syncWaits = false) ∧
    (w63.chip.Inv ∧ MayWrite w63 Master.window Reg.seqcmd ∧ w63.chip.seq.run = true) ∧
    (w63.chip.Inv ∧ MayWrite w63 Master.window Reg.railcmd ∧ w63.chip.seq.run = true) ∧
    (w63.chip.Inv ∧ MayWrite w63 Master.window Reg.syncset ∧ w63.chip.seq.syncWaits = true) ∧
    (w63.chip.Inv ∧ MayWrite w63 Master.window (Reg.stepMem (511 : Fin 512).val) ∧ w63.chip.seq.run = true) ∧
    (w64.chip.Inv ∧ MayWrite w64 Master.window Reg.railcmd ∧ w64.chip.seq.run = false ∧ (w64.chip.rail (3 : Fin
      16).val).driven = true ∧ (w64.chip.rail (3 : Fin 16).val).st = RailState.off ∧ (w64.chip.rail (3 : Fin
      16).val).pgq = false) ∧
    (w65.chip.Inv ∧ MayWrite w65 Master.window Reg.seqctl ∧ w65.chip.reg Reg.seqctl = (1 : Word) ∧ w65.chip.seq.wait
      = SeqWait.none ∧ (∀ (k : Fin 16), w65.chip.bit (Reg.rnCfg ↑k) 0 = false ∨ (w65.chip.rail ↑k).driven = true)) ∧
    (w66.chip.Inv ∧ MayWrite w66 Master.window Reg.railclr ∧ (w66.chip.rail (3 : Fin 16).val).st =
      RailState.latched) ∧
    (w95.chip.Inv ∧ MayWrite w95 Master.window Reg.railcmd ∧ w95.chip.seq.run = false ∧ (w95.chip.rail (3 : Fin
      16).val).st = RailState.good ∧ w95.chip.dchch (3 : Fin 16).val ≠ 31) :=
  ⟨⟨inv_of (by decide +kernel), by decide +kernel, by decide +kernel, by decide +kernel⟩,
   ⟨inv_of (by decide +kernel), by decide +kernel, by decide +kernel⟩,
   ⟨inv_of (by decide +kernel), by decide +kernel, by decide +kernel⟩,
   ⟨inv_of (by decide +kernel), by decide +kernel, by decide +kernel⟩,
   ⟨inv_of (by decide +kernel), by decide +kernel, by decide +kernel⟩,
   ⟨inv_of (by decide +kernel), by decide +kernel, by decide +kernel⟩,
   ⟨inv_of (by decide +kernel), by decide +kernel, by decide +kernel⟩,
   ⟨inv_of (by decide +kernel), by decide +kernel, by decide +kernel⟩,
   ⟨inv_of (by decide +kernel), by decide +kernel, by decide +kernel⟩,
   ⟨inv_of (by decide +kernel), by decide +kernel, by decide +kernel, by decide +kernel, by decide +kernel,
      by decide +kernel⟩,
   ⟨inv_of (by decide +kernel), by decide +kernel, by decide +kernel, by decide +kernel, by decide +kernel⟩,
   ⟨inv_of (by decide +kernel), by decide +kernel, by decide +kernel⟩,
   ⟨inv_of (by decide +kernel), by decide +kernel, by decide +kernel, by decide +kernel, by decide +kernel⟩⟩

/-- States and operands that meet the hypotheses of `rail_transitions`, clause by clause. -/
theorem test_rail_transitions_applies :
    (w67.chip.up Domain.seq = true ∧ w67.chip.Inv ∧ (w67.chip.rail (15 : Fin 16).val).pgLevel = true ∧
      (w67.chip.rail (15 : Fin 16).val).pgq = false ∧ (w67.chip.rail (15 : Fin 16).val).st = RailState.rising ∧
      (w67.chip.rail (15 : Fin 16).val).riseAt = none) ∧
    (w68.chip.up Domain.seq = true ∧ w68.chip.Inv ∧ (w68.chip.rail (15 : Fin 16).val).st = RailState.rising ∧
      (w68.chip.rail (15 : Fin 16).val).riseAt = some 40) ∧
    (w68.chip.up Domain.seq = true ∧ w68.chip.Inv ∧ w68.chip.seq.rails.length = 16) ∧
    (w69.chip.up Domain.seq = true ∧ w69.chip.Inv ∧ (w69.chip.rail (15 : Fin 16).val).pgLevel = false ∧
      (w69.chip.rail (15 : Fin 16).val).pgq = true ∧ (w69.chip.rail (15 : Fin 16).val).st = RailState.good) ∧
    (w70.chip.up Domain.seq = true ∧ w70.chip.Inv ∧ (w70.chip.rail (15 : Fin 16).val).st = RailState.fault ∧
      (w70.chip.rail (15 : Fin 16).val).faultAt = some 40 ∧ (∀ (k : Fin 16), k ≠ (15 : Fin 16) → (w70.chip.rail
      ↑k).faultAt = none) ∧ (w70.chip.rail (15 : Fin 16).val).react = 0 ∧ (w70.chip.rail (15 : Fin 16).val).pgq =
      false) ∧
    (w71.chip.up Domain.seq = true ∧ w71.chip.Inv ∧ (w71.chip.rail (15 : Fin 16).val).st = RailState.fault ∧
      (w71.chip.rail (15 : Fin 16).val).faultAt = some 40 ∧ (∀ (k : Fin 16), k ≠ (15 : Fin 16) → (w71.chip.rail
      ↑k).faultAt = none) ∧ (w71.chip.rail (15 : Fin 16).val).react = 1 ∧ (w71.chip.rail (15 : Fin 16).val).retries
      < (w71.chip.rail (15 : Fin 16).val).nretry) ∧
    (w72.chip.up Domain.seq = true ∧ w72.chip.Inv ∧ (w72.chip.rail (15 : Fin 16).val).st = RailState.fault ∧
      (w72.chip.rail (15 : Fin 16).val).faultAt = some 40 ∧ (∀ (k : Fin 16), k ≠ (15 : Fin 16) → (w72.chip.rail
      ↑k).faultAt = none) ∧ (w72.chip.rail (15 : Fin 16).val).react = 3 ∧ Domain.sup ≠ Domain.aon) ∧
    (w72.chip.up Domain.seq = true ∧ w72.chip.Inv ∧ (w72.chip.rail (15 : Fin 16).val).st = RailState.fault ∧
      (w72.chip.rail (15 : Fin 16).val).faultAt = some 40 ∧ (∀ (k : Fin 16), k ≠ (15 : Fin 16) → (w72.chip.rail
      ↑k).faultAt = none) ∧ (w72.chip.rail (15 : Fin 16).val).react = 3 ∧ (5 : Nat) < (553648128 : Nat)) ∧
    (w72.chip.up Domain.seq = true ∧ w72.chip.Inv ∧ (w72.chip.rail (15 : Fin 16).val).st = RailState.fault ∧
      (w72.chip.rail (15 : Fin 16).val).faultAt = some 40 ∧ (∀ (k : Fin 16), k ≠ (15 : Fin 16) → (w72.chip.rail
      ↑k).faultAt = none) ∧ (w72.chip.rail (15 : Fin 16).val).react = 3 ∧ (w72.chip.elapseTo (40 + w72.chip.rf
      (Reg.rnQual (15 : Fin 16).val) 16 8 * 1000)).shelfReq = none) ∧
    (w73.chip.up Domain.seq = true ∧ w73.chip.Inv ∧ (w73.chip.rail (15 : Fin 16).val).st = RailState.retry ∧
      (w73.chip.rail (15 : Fin 16).val).pgq = false) ∧
    (w74.chip.up Domain.seq = true ∧ w74.chip.Inv ∧ (w74.chip.rail (15 : Fin 16).val).st = RailState.falling ∧
      (w74.chip.rail (15 : Fin 16).val).toLatch = false) ∧
    (w75.chip.up Domain.seq = true ∧ w75.chip.Inv ∧ (w75.chip.rail (15 : Fin 16).val).st = RailState.falling ∧
      (w75.chip.rail (15 : Fin 16).val).toLatch = true) :=
  ⟨⟨by decide +kernel, inv_of (by decide +kernel), by decide +kernel, by decide +kernel, by decide +kernel,
      by decide +kernel⟩,
   ⟨by decide +kernel, inv_of (by decide +kernel), by decide +kernel, by decide +kernel⟩,
   ⟨by decide +kernel, inv_of (by decide +kernel), by decide +kernel⟩,
   ⟨by decide +kernel, inv_of (by decide +kernel), by decide +kernel, by decide +kernel, by decide +kernel⟩,
   ⟨by decide +kernel, inv_of (by decide +kernel), by decide +kernel, by decide +kernel, by decide +kernel,
      by decide +kernel, by decide +kernel⟩,
   ⟨by decide +kernel, inv_of (by decide +kernel), by decide +kernel, by decide +kernel, by decide +kernel,
      by decide +kernel, by decide +kernel⟩,
   ⟨by decide +kernel, inv_of (by decide +kernel), by decide +kernel, by decide +kernel, by decide +kernel,
      by decide +kernel, by decide +kernel⟩,
   ⟨by decide +kernel, inv_of (by decide +kernel), by decide +kernel, by decide +kernel, by decide +kernel,
      by decide +kernel, by decide +kernel⟩,
   ⟨by decide +kernel, inv_of (by decide +kernel), by decide +kernel, by decide +kernel, by decide +kernel,
      by decide +kernel, by decide +kernel⟩,
   ⟨by decide +kernel, inv_of (by decide +kernel), by decide +kernel, by decide +kernel⟩,
   ⟨by decide +kernel, inv_of (by decide +kernel), by decide +kernel, by decide +kernel⟩,
   ⟨by decide +kernel, inv_of (by decide +kernel), by decide +kernel, by decide +kernel⟩⟩

/-- States and operands that meet the hypotheses of `sequence_steps_and_inputs` (sequence steps), clause by clause.
-/
theorem test_sequence_steps_applies :
    (w76.chip.seqReady = true ∧ w76.chip.seq.pc < 511 ∧ seqDecode w76.chip.stepWord = some (SeqStep.en true 32768) ∧
      w76.chip.unowned 32768 = false) ∧
    (w77.chip.seqReady = true ∧ w77.chip.seq.pc < 511 ∧ seqDecode w77.chip.stepWord = some (SeqStep.en true 16384) ∧
      w77.chip.unowned 16384 = true) ∧
    (w78.chip.seqReady = true ∧ w78.chip.seq.pc < 511 ∧ seqDecode w78.chip.stepWord = some (SeqStep.wait 1000000)) ∧
    (w79.chip.seqReady = true ∧ w79.chip.seq.pc < 511 ∧ seqDecode w79.chip.stepWord = some (SeqStep.check true 2
      32768 5) ∧ w79.chip.unowned 32768 = false) ∧
    (w80.chip.seqReady = true ∧ w80.chip.seq.pc < 511 ∧ seqDecode w80.chip.stepWord = some (SeqStep.jump 1 0 5) ∧ (5
      : Nat) ≤ (511 : Nat)) ∧
    (w82.chip.seqReady = true ∧ w82.chip.seq.pc < 511 ∧ seqDecode w82.chip.stepWord = some (SeqStep.jump 0 0 512) ∧
      (0 : Nat) = (0 : Nat) ∧ (511 : Nat) < (512 : Nat)) ∧
    (w83.chip.seqReady = true ∧ w83.chip.seq.pc < 511 ∧ seqDecode w83.chip.stepWord = some (SeqStep.sync 1 5) ∧
      w83.chip.bit Reg.seqctl 1 = true ∧ 1 = (w83.chip.seq.syncSt + 1) % 256 ∧ 1 ≠ w83.chip.seq.syncSt) ∧
    (w84.chip.seqReady = true ∧ w84.chip.seq.pc < 511 ∧ seqDecode w84.chip.stepWord = some (SeqStep.sync 0 5) ∧
      (w84.chip.bit Reg.seqctl 1 = false ∨ 0 = w84.chip.seq.syncSt)) ∧
    (w85.chip.seqReady = true ∧ w85.chip.seq.pc < 511 ∧ seqDecode w85.chip.stepWord = some (SeqStep.sync 2 5) ∧
      w85.chip.bit Reg.seqctl 1 = true ∧ 2 ≠ (w85.chip.seq.syncSt + 1) % 256 ∧ 2 ≠ w85.chip.seq.syncSt) ∧
    (w86.chip.seqReady = true ∧ w86.chip.seq.pc < 511 ∧ seqDecode w86.chip.stepWord = some SeqStep.end_ ∧
      w86.chip.seq.inShut = false) ∧
    (w87.chip.seqReady = true ∧ w87.chip.seq.pc < 511 ∧ seqDecode w87.chip.stepWord = none) :=
  ⟨⟨by decide +kernel, by decide +kernel, by decide +kernel, by decide +kernel⟩,
   ⟨by decide +kernel, by decide +kernel, by decide +kernel, by decide +kernel⟩,
   ⟨by decide +kernel, by decide +kernel, by decide +kernel⟩,
   ⟨by decide +kernel, by decide +kernel, by decide +kernel, by decide +kernel⟩,
   ⟨by decide +kernel, by decide +kernel, by decide +kernel, by decide +kernel⟩,
   ⟨by decide +kernel, by decide +kernel, by decide +kernel, by decide +kernel, by decide +kernel⟩,
   ⟨by decide +kernel, by decide +kernel, by decide +kernel, by decide +kernel, by decide +kernel,
      by decide +kernel⟩,
   ⟨by decide +kernel, by decide +kernel, by decide +kernel, by decide +kernel⟩,
   ⟨by decide +kernel, by decide +kernel, by decide +kernel, by decide +kernel, by decide +kernel,
      by decide +kernel⟩,
   ⟨by decide +kernel, by decide +kernel, by decide +kernel, by decide +kernel⟩,
   ⟨by decide +kernel, by decide +kernel, by decide +kernel⟩⟩

/-- States and operands that meet the hypotheses of `sequence_steps_and_inputs` (sequencer inputs), clause by
clause. -/
theorem test_sequencer_inputs_applies :
    (w88.chip.up Domain.seq = true ∧ w88.chip.Inv ∧ w88.chip.seq.wait = SeqWait.time 70 ∧ w88.chip.seq.pc < 511) ∧
    (w88.chip.up Domain.seq = true ∧ w88.chip.Inv ∧ w88.chip.auxOn = true ∧ w88.chip.seq.auxStale = false) ∧
    (w89.chip.up Domain.seq = true ∧ w89.chip.Inv ∧ w89.chip.seq.wait = SeqWait.check true 5 (some 70) 511 ∧ (511 :
      Nat) ≤ (511 : Nat)) ∧
    (w90.chip.up Domain.seq = true ∧ w90.chip.Inv ∧ w90.chip.seq.wait = SeqWait.sync 5 (some 70) 511 ∧ (511 : Nat) ≤
      (511 : Nat)) ∧
    (w91.chip.up Domain.seq = true ∧ w91.chip.Inv ∧ w91.chip.syncOn = true ∧ w91.chip.seq.lineLo = true ∧
      w91.chip.seq.wait = SeqWait.none) ∧
    (w91.chip.up Domain.seq = true ∧ w91.chip.Inv ∧ w91.chip.auxOn = true ∧ w91.chip.seq.auxGood = true ∧
      w91.chip.seq.inShut = false) ∧
    (w92.chip.up Domain.seq = true ∧ w92.chip.Inv ∧ w92.chip.syncOn = true ∧ w92.chip.seq.lineLo = true ∧
      w92.chip.seq.pc < 511 ∧ w92.chip.seq.wait = SeqWait.sync ((w92.chip.seq.syncSt + 1) % 256) (some 70) 511) ∧
    (w92.chip.up Domain.seq = true ∧ w92.chip.Inv ∧ w92.chip.syncOn = true ∧ w92.chip.seq.lastRise = some 30 ∧
      w92.chip.now < 30 + 300) ∧
    (w93.chip.up Domain.seq = true ∧ w93.chip.Inv ∧ w93.chip.auxOn = true ∧ w93.chip.seq.auxGood = false ∧
      w93.chip.seq.auxRe = false ∧ w93.chip.seq.auxHiAt = some 30) ∧
    (w94.chip.up Domain.seq = true ∧ w94.chip.Inv ∧ w94.chip.syncOn = true ∧ w94.chip.seq.lastRise = some 30 ∧ 30 +
      300 ≤ w94.chip.now ∧ w94.chip.now < 30 + 400) ∧
    (w94.chip.up Domain.seq = true ∧ w94.chip.Inv ∧ w94.chip.auxOn = true ∧ w94.chip.seq.auxGood = true ∧
      w94.chip.seq.inShut = true) :=
  ⟨⟨by decide +kernel, inv_of (by decide +kernel), by decide +kernel, by decide +kernel⟩,
   ⟨by decide +kernel, inv_of (by decide +kernel), by decide +kernel, by decide +kernel⟩,
   ⟨by decide +kernel, inv_of (by decide +kernel), by decide +kernel, by decide +kernel⟩,
   ⟨by decide +kernel, inv_of (by decide +kernel), by decide +kernel, by decide +kernel⟩,
   ⟨by decide +kernel, inv_of (by decide +kernel), by decide +kernel, by decide +kernel, by decide +kernel⟩,
   ⟨by decide +kernel, inv_of (by decide +kernel), by decide +kernel, by decide +kernel, by decide +kernel⟩,
   ⟨by decide +kernel, inv_of (by decide +kernel), by decide +kernel, by decide +kernel, by decide +kernel,
      by decide +kernel⟩,
   ⟨by decide +kernel, inv_of (by decide +kernel), by decide +kernel, by decide +kernel, by decide +kernel⟩,
   ⟨by decide +kernel, inv_of (by decide +kernel), by decide +kernel, by decide +kernel, by decide +kernel,
      by decide +kernel⟩,
   ⟨by decide +kernel, inv_of (by decide +kernel), by decide +kernel, by decide +kernel, by decide +kernel,
      by decide +kernel⟩,
   ⟨by decide +kernel, inv_of (by decide +kernel), by decide +kernel, by decide +kernel, by decide +kernel⟩⟩

/-- States and operands that meet the hypotheses of `strand_start_issue_and_promotion` (strand start and stop),
clause by clause. -/
theorem test_strand_start_and_stop_applies :
    (up.chip.Inv ∧ MayWrite up Master.window Reg.strcmd ∧ (up.chip.strand (7 : Fin 8).val).run = RunState.stopped) ∧
    (up.chip.Inv ∧ MayWrite up Master.window Reg.strcmd ∧ fld (0 : Word) (16 : Nat) (16 : Nat) ≠ (22439 : Nat)) ∧
    (w96.chip.Inv ∧ MayWrite w96 Master.window Reg.strcmd ∧ (w96.chip.strand (7 : Fin 8).val).run ≠
      RunState.stopped) :=
  ⟨⟨inv_of (by decide +kernel), by decide +kernel, by decide +kernel⟩,
   ⟨inv_of (by decide +kernel), by decide +kernel, by decide +kernel⟩,
   ⟨inv_of (by decide +kernel), by decide +kernel, by decide +kernel⟩⟩

/-- States and operands that meet the hypotheses of `strand_start_issue_and_promotion` (issue and promotion), clause
by clause. -/
theorem test_issue_and_promotion_applies :
    (iss.chip.Inv ∧ iss.chip.up Domain.sup = true ∧ iss.chip.issue.holder = some (1 : Fin 8)) ∧
    (iss.chip.Inv ∧ iss.chip.up Domain.sup = true ∧ (iss.chip.strand (2 : Fin 8).val).run = RunState.ready ∧
      iss.chip.rf (Reg.snCtl (2 : Fin 8).val) 16 16 ≠ 0 ∧ iss.chip.effPrio (2 : Fin 8).val < 6 ∧
      iss.chip.issue.holder ≠ some (2 : Fin 8) ∧ (∀ (h : Fin 8), iss.chip.issue.holder = some h → iss.chip.effPrio
      ↑h ≤ 6)) :=
  ⟨⟨inv_of (by decide +kernel), by decide +kernel, by decide +kernel⟩,
   ⟨inv_of (by decide +kernel), by decide +kernel, by decide +kernel, by decide +kernel, by decide +kernel,
      by decide +kernel, by decide +kernel⟩⟩

/-- States and operands that meet the hypotheses of `software_events`, clause by clause. -/
theorem test_software_events_applies :
    (MayWrite up Master.window Reg.swev ∧ BitVec.getLsbD (327681 : Word) (0 : Nat) = true) ∧
    (MayWrite up Master.window Reg.swev ∧ BitVec.getLsbD (327680 : Word) (0 : Nat) = false) :=
  ⟨⟨by decide +kernel, by decide +kernel⟩,
   ⟨by decide +kernel, by decide +kernel⟩⟩

/-- States and operands that meet the hypotheses of `event_queue` (event queue commands), clause by clause. -/
theorem test_event_queue_commands_applies :
    (MayWrite w97 Master.window Reg.evqpop ∧ BitVec.getLsbD (0 : Word) (0 : Nat) = false ∧ BitVec.getLsbD (0 : Word)
      (1 : Nat) = false) ∧
    (MayWrite w97 Master.window Reg.evqpop ∧ BitVec.getLsbD (1 : Word) (0 : Nat) = true ∧ BitVec.getLsbD (1 : Word)
      (1 : Nat) = false) ∧
    (MayWrite w97 Master.window Reg.evqpop ∧ BitVec.getLsbD (2 : Word) (0 : Nat) = false ∧ BitVec.getLsbD (2 : Word)
      (1 : Nat) = true) ∧
    (MayWrite w97 Master.window Reg.evqpop ∧ BitVec.getLsbD (3 : Word) (0 : Nat) = true ∧ BitVec.getLsbD (3 : Word)
      (1 : Nat) = true) :=
  ⟨⟨by decide +kernel, by decide +kernel, by decide +kernel⟩,
   ⟨by decide +kernel, by decide +kernel, by decide +kernel⟩,
   ⟨by decide +kernel, by decide +kernel, by decide +kernel⟩,
   ⟨by decide +kernel, by decide +kernel, by decide +kernel⟩⟩

/-- States and operands that meet the hypotheses of `conditioned_inputs`, clause by clause. -/
theorem test_conditioned_inputs_applies :
    (w98.chip.Inv ∧ inputUsed (4 : Fin 32).val = true ∧ w98.chip.up Domain.ifc = true ∧ (w98.chip.input (4 : Fin
      32).val).unstable = false ∧ (w98.chip.tmax (4 : Fin 32).val = 0 ∨ (w98.chip.input (4 : Fin 32).val).edges + 3
      ≤ w98.chip.tmax (4 : Fin 32).val) ∧ (5 : Nat) ≠ (4 : Fin 32).val) ∧
    (w98.chip.Inv ∧ inputUsed (4 : Fin 32).val = true ∧ w98.chip.up Domain.ifc = true ∧ (w98.chip.input (4 : Fin
      32).val).unstable = false ∧ (w98.chip.tmax (4 : Fin 32).val = 0 ∨ (w98.chip.input (4 : Fin 32).val).edges + 3
      ≤ w98.chip.tmax (4 : Fin 32).val) ∧ (4 : Nat) ≤ (4 : Fin 32).val ∧ (4 : Fin 32).val ≤ (11 : Nat) ∧
      (w98.chip.input (4 : Fin 32).val).level ≠ true) ∧
    (w98.chip.Inv ∧ inputUsed (4 : Fin 32).val = true ∧ w98.chip.up Domain.ifc = true ∧ MayWrite w98 Master.window
      (Reg.incfg (4 : Fin 32).val)) ∧
    (w99.chip.Inv ∧ inputUsed (4 : Fin 32).val = true ∧ w99.chip.up Domain.ifc = true ∧ (w99.chip.input (4 : Fin
      32).val).edges + 2 ≤ w99.chip.tmax (4 : Fin 32).val) ∧
    (w99.chip.Inv ∧ inputUsed (4 : Fin 32).val = true ∧ w99.chip.up Domain.ifc = true ∧ (w99.chip.input (4 : Fin
      32).val).stk = false ∧ w99.chip.rf (Reg.incfg (4 : Fin 32).val) 24 8 ≠ 0 ∧ (w99.chip.input (4 : Fin
      32).val).raw = w99.chip.bit (Reg.incfg (4 : Fin 32).val) 22) ∧
    (w100.chip.Inv ∧ inputUsed (11 : Fin 32).val = true ∧ w100.chip.up Domain.ifc = true ∧ (w100.chip.input (11 :
      Fin 32).val).unstable = false ∧ w100.chip.tmax (11 : Fin 32).val ≠ 0 ∧ w100.chip.tmax (11 : Fin 32).val <
      (w100.chip.input (11 : Fin 32).val).edges + 2) :=
  ⟨⟨inv_of (by decide +kernel), by decide +kernel, by decide +kernel, by decide +kernel, by decide +kernel,
      by decide +kernel⟩,
   ⟨inv_of (by decide +kernel), by decide +kernel, by decide +kernel, by decide +kernel, by decide +kernel,
      by decide +kernel, by decide +kernel, by decide +kernel⟩,
   ⟨inv_of (by decide +kernel), by decide +kernel, by decide +kernel, by decide +kernel⟩,
   ⟨inv_of (by decide +kernel), by decide +kernel, by decide +kernel, by decide +kernel⟩,
   ⟨inv_of (by decide +kernel), by decide +kernel, by decide +kernel, by decide +kernel, by decide +kernel,
      by decide +kernel⟩,
   ⟨inv_of (by decide +kernel), by decide +kernel, by decide +kernel, by decide +kernel, by decide +kernel,
      by decide +kernel⟩⟩

/-- States and operands that meet the hypotheses of `counters`, clause by clause. -/
theorem test_counters_applies :
    (MayWrite up Master.window Reg.pmctl ∧ BitVec.getLsbD (4 : Word) (2 : Nat) = true) ∧
    (MayWrite up Master.window (Reg.cntCfg (7 : Fin 8).val)) ∧
    (x102.Inv ∧ x102.up Domain.sup = true ∧ x102.bit Reg.pmctl 0 = true ∧ x102.pmonPass (x102.reg (Reg.cntCfg (0 : Fin 8).val)) { sel := 6 : Occur } = true ∧ 2 ^ 48 ≤ x102.pmon.getD (0 : Fin 8).val 0 + 1 ∧ x102.bit (Reg.cntCfg (0 : Fin 8).val) 21 = true) ∧
    (MayWrite up Master.window Reg.pmctl ∧ BitVec.getLsbD (3 : Word) (2 : Nat) = false) ∧
    (x102.Inv ∧ x102.up Domain.sup = true ∧ x102.bit Reg.pmctl 0 = true ∧ x102.pmonPass (x102.reg (Reg.cntCfg (1 : Fin 8).val)) { sel := 6 : Occur } = false) :=
  ⟨⟨by decide +kernel, by decide +kernel⟩,
   by decide +kernel,
   ⟨inv_of (by decide +kernel), by decide +kernel, by decide +kernel, by decide +kernel, by decide +kernel,
      by decide +kernel⟩,
   ⟨by decide +kernel, by decide +kernel⟩,
   ⟨inv_of (by decide +kernel), by decide +kernel, by decide +kernel, by decide +kernel⟩⟩

/-- States and operands that meet the hypotheses of `registers_and_arithmetic` (general registers), clause by
clause. -/
theorem test_general_registers_applies :
    (regs16.length = (16 : Nat) ∧ (3 : Fin 16) ≠ (0 : Fin 16)) ∧
    (regs16.length = (16 : Nat) ∧ (15 : Fin 16) ≠ (0 : Fin 16)) :=
  ⟨⟨by decide +kernel, by decide +kernel⟩,
   ⟨by decide +kernel, by decide +kernel⟩⟩

/-- States and operands that meet the hypotheses of `registers_and_arithmetic` (arithmetic results), clause by
clause. -/
theorem test_arithmetic_results_applies :
    (StrandReady w103.chip (3 : Fin 8) Guard.always ∧ (5 : Nat) ≠ (3 : Fin 8).val) :=
  ⟨by constructor <;> decide +kernel, by decide +kernel⟩

/-- States and operands that meet the hypotheses of `comparisons_and_guards` (comparisons and predicates), clause by
clause. -/
theorem test_comparisons_and_predicates_applies :
    ((true = true ↔ Compares Cond.ltu (w104.chip.gGet (Engine.tile (1 : Fin 2)) (1 : Fin 16)) (w104.chip.gGet
      (Engine.tile (1 : Fin 2)) (2 : Fin 16))) ∧ TileReady w104.chip (1 : Fin 2) 1 Guard.always) ∧
    ((true = true ↔ Compares Cond.ltu (w104.chip.gGet (Engine.tile (1 : Fin 2)) (1 : Fin 16)) (BitVec.signExtend 32
      (8191 : BitVec 13))) ∧ TileReady w104.chip (1 : Fin 2) 1 Guard.always) :=
  ⟨⟨by simp only [Compares]; decide +kernel, by constructor <;> decide +kernel⟩,
   ⟨by simp only [Compares]; decide +kernel, by constructor <;> decide +kernel⟩⟩

/-- States and operands that meet the hypotheses of `comparisons_and_guards` (false guards), clause by clause. -/
theorem test_false_guards_applies :
    (StrandReady w103.chip (3 : Fin 8) Guard.always ∧ Guard.holds (Guard.when (1 : Fin 4) true) (w103.chip.strand (3
      : Fin 8).val).p = false ∧ Instr.div (Engine.strand (3 : Fin 8)) (Guard.when (1 : Fin 4) true) (1 : Fin 16) (2
      : Fin 16) (3 : Fin 16) ∈ [Instr.add (Engine.strand (3 : Fin 8)) (Guard.when (1 : Fin 4) true) (1 : Fin 16) (2
      : Fin 16) (3 : Fin 16), Instr.div (Engine.strand (3 : Fin 8)) (Guard.when (1 : Fin 4) true) (1 : Fin 16) (2 :
      Fin 16) (3 : Fin 16), Instr.addi (Engine.strand (3 : Fin 8)) (Guard.when (1 : Fin 4) true) (1 : Fin 16) (2 :
      Fin 16) (5 : BitVec 14), Instr.ldw (3 : Fin 8) (Guard.when (1 : Fin 4) true) (1 : Fin 16) (2 : Fin 16) (5 :
      BitVec 14), Instr.stw (3 : Fin 8) (Guard.when (1 : Fin 4) true) (1 : Fin 16) (2 : Fin 16) (5 : BitVec 14),
      Instr.swapw (3 : Fin 8) (Guard.when (1 : Fin 4) true) (1 : Fin 16) (2 : Fin 16) (3 : Fin 16)] ∧ (5 : Nat) ≠ (3
      : Fin 8).val) :=
  ⟨by constructor <;> decide +kernel, by decide +kernel, by decide +kernel, by decide +kernel⟩

/-- States and operands that meet the hypotheses of `strand_loads_and_stores`, clause by clause. -/
theorem test_strand_loads_and_stores_applies :
    (StrandReady w105.chip (3 : Fin 8) Guard.always ∧ w105.chip.Inv ∧ x106 = { w105.chip.strand 3 with pc := (w105.chip.strand 3).pc + 4 } ∧ 536870928 = BitVec.toNat (gRead x106.g (4 : Fin 16) + BitVec.signExtend 32 (0 : BitVec 14)) ∧ SramOk w105.chip 536870928 4) ∧
    (StrandReady w105.chip (3 : Fin 8) Guard.always ∧ w105.chip.Inv ∧ x106 = { w105.chip.strand 3 with pc := (w105.chip.strand 3).pc + 4 } ∧ 536870928 = BitVec.toNat (gRead x106.g (4 : Fin 16) + BitVec.signExtend 32 (0 : BitVec 14)) ∧ SramOk w105.chip 536870928 2) ∧
    (StrandReady w105.chip (3 : Fin 8) Guard.always ∧ w105.chip.Inv ∧ x106 = { w105.chip.strand 3 with pc := (w105.chip.strand 3).pc + 4 } ∧ 536870928 = BitVec.toNat (gRead x106.g (4 : Fin 16) + BitVec.signExtend 32 (0 : BitVec 14)) ∧ SramOk w105.chip 536870928 1) ∧
    (StrandReady w105.chip (3 : Fin 8) Guard.always ∧ w105.chip.Inv ∧ x106 = { w105.chip.strand 3 with pc := (w105.chip.strand 3).pc + 4 } ∧ 536870928 = BitVec.toNat (gRead x106.g (4 : Fin 16)) ∧ SramOk w105.chip 536870928 4 ∧ x106.priv = true ∧ (1 : Nat) < (4 : Nat)) ∧
    (StrandReady w105.chip (3 : Fin 8) Guard.always ∧ w105.chip.Inv ∧ x106 = { w105.chip.strand 3 with pc := (w105.chip.strand 3).pc + 4 } ∧ 536870928 = BitVec.toNat (gRead x106.g (4 : Fin 16)) ∧ SramOk w105.chip 536870928 4 ∧ x106.priv = true ∧ ((536870932 : Nat) < (536870928 : Nat) ∨ (536870928 : Nat) + (4 : Nat) ≤ (536870932 : Nat))) ∧
    (StrandReady w105.chip (3 : Fin 8) Guard.always ∧ w105.chip.Inv ∧ x106 = { w105.chip.strand 3 with pc := (w105.chip.strand 3).pc + 4 } ∧ 536870928 = BitVec.toNat (gRead x106.g (4 : Fin 16)) ∧ SramOk w105.chip 536870928 4 ∧ x106.priv = true ∧ BitVec.ofNat 32 (w105.chip.bytesNat 536870928 4) ≠ gRead x106.g (3 : Fin 16)) ∧
    (StrandReady w107.chip (3 : Fin 8) Guard.always ∧ w107.chip.Inv ∧ x108 = { w107.chip.strand 3 with pc := (w107.chip.strand 3).pc + 4 } ∧ 536870928 = BitVec.toNat (gRead x108.g (4 : Fin 16)) ∧ SramOk w107.chip 536870928 4 ∧ x108.priv = true ∧ BitVec.ofNat 32 (w107.chip.bytesNat 536870928 4) = gRead x108.g (3 : Fin 16) ∧ (1 : Nat) < (4 : Nat)) :=
  ⟨⟨by constructor <;> decide +kernel, inv_of (by decide +kernel), by decide +kernel, by decide +kernel,
      by constructor <;> decide +kernel⟩,
   ⟨by constructor <;> decide +kernel, inv_of (by decide +kernel), by decide +kernel, by decide +kernel,
      by constructor <;> decide +kernel⟩,
   ⟨by constructor <;> decide +kernel, inv_of (by decide +kernel), by decide +kernel, by decide +kernel,
      by constructor <;> decide +kernel⟩,
   ⟨by constructor <;> decide +kernel, inv_of (by decide +kernel), by decide +kernel, by decide +kernel,
      by constructor <;> decide +kernel, by decide +kernel, by decide +kernel⟩,
   ⟨by constructor <;> decide +kernel, inv_of (by decide +kernel), by decide +kernel, by decide +kernel,
      by constructor <;> decide +kernel, by decide +kernel, by decide +kernel⟩,
   ⟨by constructor <;> decide +kernel, inv_of (by decide +kernel), by decide +kernel, by decide +kernel,
      by constructor <;> decide +kernel, by decide +kernel, by decide +kernel⟩,
   ⟨by constructor <;> decide +kernel, inv_of (by decide +kernel), by decide +kernel, by decide +kernel,
      by constructor <;> decide +kernel, by decide +kernel, by decide +kernel, by decide +kernel⟩⟩

/-- States and operands that meet the hypotheses of `control_and_system_instructions` (control transfers), clause by
clause. -/
theorem test_control_transfers_applies :
    (StrandReady w103.chip (3 : Fin 8) Guard.always ∧ x109 = w103.chip.strand (3 : Fin 8).val ∧ Compares Cond.lt
      (gRead x109.g (2 : Fin 16)) (gRead x109.g (1 : Fin 16)) ∧ (5 : Nat) ≠ (3 : Fin 8).val) ∧
    (StrandReady w103.chip (3 : Fin 8) Guard.always ∧ x109 = w103.chip.strand (3 : Fin 8).val ∧ BitVec.toNat (gRead
      x109.g (2 : Fin 16) + BitVec.signExtend 32 (16379 : BitVec 14)) % 4 = 0 ∧ (5 : Nat) ≠ (3 : Fin 8).val) ∧
    (StrandReady w103.chip (3 : Fin 8) Guard.always ∧ x109 = w103.chip.strand (3 : Fin 8).val ∧ (¬Compares Cond.ltu
      (gRead x109.g (2 : Fin 16)) (gRead x109.g (1 : Fin 16))) ∧ (5 : Nat) ≠ (3 : Fin 8).val) :=
  ⟨⟨by constructor <;> decide +kernel, by decide +kernel, by simp only [Compares]; decide +kernel,
      by decide +kernel⟩,
   ⟨by constructor <;> decide +kernel, by decide +kernel, by decide +kernel, by decide +kernel⟩,
   ⟨by constructor <;> decide +kernel, by decide +kernel, by simp only [Compares]; decide +kernel,
      by decide +kernel⟩⟩

/-- States and operands that meet the hypotheses of `control_and_system_instructions` (system instructions), clause
by clause. -/
theorem test_system_instructions_applies :
    (StrandReady w103.chip (3 : Fin 8) Guard.always ∧ x109 = w103.chip.strand (3 : Fin 8).val ∧ x109.p.length = 4 ∧
      x109.priv = true) ∧
    (StrandReady w103.chip (3 : Fin 8) Guard.always ∧ x109 = w103.chip.strand (3 : Fin 8).val ∧ x109.p.length = 4 ∧
      (7 : Fin 16).val < (8 : Nat) ∧ (x109.priv = true ∨ (7 : Fin 16).val ≤ 1)) ∧
    (x110.Inv ∧ (x110.strand (3 : Fin 8).val).run = RunState.ready ∧ x110.pendingFor (3 : Fin 8).val = []) ∧
    (StrandReady pend3.chip (3 : Fin 8) Guard.always ∧ x111 = pend3.chip.strand (3 : Fin 8).val ∧ x111.p.length = 4
      ∧ pend3.chip.pendingFor (3 : Fin 8).val ≠ []) :=
  ⟨⟨by constructor <;> decide +kernel, by decide +kernel, by decide +kernel, by decide +kernel⟩,
   ⟨by constructor <;> decide +kernel, by decide +kernel, by decide +kernel, by decide +kernel, by decide +kernel⟩,
   ⟨inv_of (by decide +kernel), by decide +kernel, by decide +kernel⟩,
   ⟨by constructor <;> decide +kernel, by decide +kernel, by decide +kernel, by decide +kernel⟩⟩

/-- States and operands that meet the hypotheses of `exceptions`, clause by clause. -/
theorem test_exceptions_applies :
    (x112 = usr.chip.strand (3 : Fin 8).val ∧ (1342177281 : Word) = gRead x112.g (3 : Fin 16) + BitVec.signExtend 32
      (0 : BitVec 14) ∧ StrandReady usr.chip (3 : Fin 8) Guard.always ∧ x112.priv = false) ∧
    (x112 = usr.chip.strand (3 : Fin 8).val ∧ (1342177281 : Word) = gRead x112.g (3 : Fin 16) + BitVec.signExtend 32
      (0 : BitVec 14) ∧ StrandReady usr.chip (3 : Fin 8) Guard.always ∧ BitVec.toNat (1342177281 : Word) % (4 : Nat)
      ≠ (0 : Nat) ∧ (5 : Nat) ≠ (3 : Fin 8).val) ∧
    (x112 = usr.chip.strand (3 : Fin 8).val ∧ (1342177280 : Word) = gRead x112.g (3 : Fin 16) + BitVec.signExtend 32
      (16383 : BitVec 14) ∧ StrandReady usr.chip (3 : Fin 8) Guard.always ∧ zisDecode (Engine.strand (3 : Fin 8))
      (4294967295 : Word) = none ∧ (5 : Nat) ≠ (3 : Fin 8).val) ∧
    (x112 = usr.chip.strand (3 : Fin 8).val ∧ (1342177280 : Word) = gRead x112.g (3 : Fin 16) + BitVec.signExtend 32
      (16383 : BitVec 14) ∧ StrandReady usr.chip (3 : Fin 8) Guard.always ∧ BitVec.toNat (1342177280 : Word) % (4 :
      Nat) = (0 : Nat) ∧ inMemory (BitVec.toNat (1342177280 : Word)) = false ∧ inBlock (BitVec.toNat (1342177280 :
      Word)) = false ∧ (5 : Nat) ≠ (3 : Fin 8).val) ∧
    (x113 = tdl.chip.strand (3 : Fin 8).val ∧ (4294967295 : Word) = gRead x113.g (3 : Fin 16) + BitVec.signExtend 32
      (16383 : BitVec 14) ∧ TileReady tdl.chip (1 : Fin 2) 0 Guard.always ∧ zisDecode (Engine.tile (1 : Fin 2))
      (4294967295 : Word) = none ∧ tdl.chip.up Domain.hub = true ∧ tdl.chip.Inv ∧ tdl.chip.tg.instant =
      Instant.deadline) ∧
    (x114 = nof.chip.strand (3 : Fin 8).val ∧ (2147483647 : Word) = gRead x114.g (3 : Fin 16) + BitVec.signExtend 32
      (16383 : BitVec 14) ∧ nof.chip.up Domain.sup = true ∧ x114.run = RunState.ready ∧ (nof.chip.fetch (3 : Fin
      8)).fst = false ∧ (5 : Nat) ≠ (3 : Fin 8).val) :=
  ⟨⟨by decide +kernel, by decide +kernel, by constructor <;> decide +kernel, by decide +kernel⟩,
   ⟨by decide +kernel, by decide +kernel, by constructor <;> decide +kernel, by decide +kernel, by decide +kernel⟩,
   ⟨by decide +kernel, by decide +kernel, by constructor <;> decide +kernel, by decide +kernel, by decide +kernel⟩,
   ⟨by decide +kernel, by decide +kernel, by constructor <;> decide +kernel, by decide +kernel, by decide +kernel,
      by decide +kernel, by decide +kernel⟩,
   ⟨by decide +kernel, by decide +kernel, by constructor <;> decide +kernel, by decide +kernel, by decide +kernel,
      inv_of (by decide +kernel), by decide +kernel⟩,
   ⟨by decide +kernel, by decide +kernel, by decide +kernel, by decide +kernel, by decide +kernel,
      by decide +kernel⟩⟩

/-- States and operands that meet the hypotheses of `loop_memory_and_accumulators` (loop memory), clause by clause.
-/
theorem test_loop_memory_applies :
    (w115.chip.Inv ∧ x116 = w115.chip.tile (1 : Fin 2).val ∧ 8192 = x116.pc ∧ TileReady w115.chip (1 : Fin 2) 2 Guard.always ∧ OwnOk w115.chip (1 : Fin 2) { ga := (1 : Fin 16), l := true, off := (0 : BitVec 11) : LAddr } 0 8 ∧ OwnOk w115.chip (1 : Fin 2) { ga := (1 : Fin 16), l := true, off := (0 : BitVec 11) : LAddr } 4 4) ∧
    (w115.chip.Inv ∧ x116 = w115.chip.tile (1 : Fin 2).val ∧ 8192 = x116.pc ∧ TileReady w115.chip (1 : Fin 2) 1 Guard.always ∧ OwnOk w115.chip (1 : Fin 2) { ga := (1 : Fin 16), l := true, off := (0 : BitVec 11) : LAddr } 0 Size.half.bytes ∧ loopRam (1 : Fin 2).val + 2048 ≤ w115.chip.loopAddr (1 : Fin 2) { ga := (1 : Fin 16), l := true, off := (0 : BitVec 11) : LAddr } 0 ∧ w115.chip.loopAddr (1 : Fin 2) { ga := (1 : Fin 16), l := true, off := (0 : BitVec 11) : LAddr } 0 < loopRam (1 : Fin 2).val + 3072 ∧ (1 : Nat) < Size.half.bytes) ∧
    (w115.chip.Inv ∧ x116 = w115.chip.tile (1 : Fin 2).val ∧ 8192 = x116.pc ∧ TileReady w115.chip (1 : Fin 2) 1 Guard.always ∧ OwnOk w115.chip (1 : Fin 2) { ga := (1 : Fin 16), l := true, off := (0 : BitVec 11) : LAddr } 0 Size.half.bytes ∧ loopRam (1 : Fin 2).val + 2048 ≤ w115.chip.loopAddr (1 : Fin 2) { ga := (1 : Fin 16), l := true, off := (0 : BitVec 11) : LAddr } 0 ∧ w115.chip.loopAddr (1 : Fin 2) { ga := (1 : Fin 16), l := true, off := (0 : BitVec 11) : LAddr } 0 < loopRam (1 : Fin 2).val + 3072 ∧ (loopRam 1 + 2056 < w115.chip.loopAddr (1 : Fin 2) { ga := (1 : Fin 16), l := true, off := (0 : BitVec 11) : LAddr } 0 ∨ w115.chip.loopAddr (1 : Fin 2) { ga := (1 : Fin 16), l := true, off := (0 : BitVec 11) : LAddr } 0 + Size.half.bytes ≤ loopRam 1 + 2056)) ∧
    (w115.chip.Inv ∧ x116 = w115.chip.tile (1 : Fin 2).val ∧ 8192 = x116.pc ∧ TileReady w115.chip (1 : Fin 2) 2 Guard.always ∧ OwnOk w115.chip (1 : Fin 2) { ga := (1 : Fin 16), l := true, off := (0 : BitVec 11) : LAddr } 0 8 ∧ x116.a.length = 4 ∧ loopRam (1 : Fin 2).val + 2048 ≤ w115.chip.loopAddr (1 : Fin 2) { ga := (1 : Fin 16), l := true, off := (0 : BitVec 11) : LAddr } 0 ∧ w115.chip.loopAddr (1 : Fin 2) { ga := (1 : Fin 16), l := true, off := (0 : BitVec 11) : LAddr } 0 < loopRam (1 : Fin 2).val + 3072 ∧ (1 : Nat) < (8 : Nat)) ∧
    (w115.chip.Inv ∧ x116 = w115.chip.tile (1 : Fin 2).val ∧ 8192 = x116.pc ∧ TileReady w115.chip (1 : Fin 2) 2 Guard.always ∧ OwnOk w115.chip (1 : Fin 2) { ga := (1 : Fin 16), l := true, off := (0 : BitVec 11) : LAddr } 0 8 ∧ x116.a.length = 4 ∧ loopRam (1 : Fin 2).val + 2048 ≤ w115.chip.loopAddr (1 : Fin 2) { ga := (1 : Fin 16), l := true, off := (0 : BitVec 11) : LAddr } 0 ∧ w115.chip.loopAddr (1 : Fin 2) { ga := (1 : Fin 16), l := true, off := (0 : BitVec 11) : LAddr } 0 < loopRam (1 : Fin 2).val + 3072 ∧ (loopRam 1 + 2056 < w115.chip.loopAddr (1 : Fin 2) { ga := (1 : Fin 16), l := true, off := (0 : BitVec 11) : LAddr } 0 ∨ w115.chip.loopAddr (1 : Fin 2) { ga := (1 : Fin 16), l := true, off := (0 : BitVec 11) : LAddr } 0 + 8 ≤ loopRam 1 + 2056)) ∧
    (w115.chip.Inv ∧ x116 = w115.chip.tile (1 : Fin 2).val ∧ 8192 = x116.pc ∧ TileReady w115.chip (1 : Fin 2) 1 Guard.always ∧ w115.chip.up Domain.hub = true ∧ w115.chip.tg.instant = Instant.deadline ∧ { ga := (1 : Fin 16), l := true, off := (1 : BitVec 11) : LAddr }.l = true ∧ w115.chip.loopAddr (1 : Fin 2) { ga := (1 : Fin 16), l := true, off := (1 : BitVec 11) : LAddr } 0 % Size.word.bytes ≠ 0) :=
  ⟨⟨inv_of (by decide +kernel), by decide +kernel, by decide +kernel, by constructor <;> decide +kernel,
      by constructor <;> decide +kernel, by constructor <;> decide +kernel⟩,
   ⟨inv_of (by decide +kernel), by decide +kernel, by decide +kernel, by constructor <;> decide +kernel,
      by constructor <;> decide +kernel, by decide +kernel, by decide +kernel, by decide +kernel⟩,
   ⟨inv_of (by decide +kernel), by decide +kernel, by decide +kernel, by constructor <;> decide +kernel,
      by constructor <;> decide +kernel, by decide +kernel, by decide +kernel, by decide +kernel⟩,
   ⟨inv_of (by decide +kernel), by decide +kernel, by decide +kernel, by constructor <;> decide +kernel,
      by constructor <;> decide +kernel, by decide +kernel, by decide +kernel, by decide +kernel,
      by decide +kernel⟩,
   ⟨inv_of (by decide +kernel), by decide +kernel, by decide +kernel, by constructor <;> decide +kernel,
      by constructor <;> decide +kernel, by decide +kernel, by decide +kernel, by decide +kernel,
      by decide +kernel⟩,
   ⟨inv_of (by decide +kernel), by decide +kernel, by decide +kernel, by constructor <;> decide +kernel,
      by decide +kernel, by decide +kernel, by decide +kernel, by decide +kernel⟩⟩

/-- States and operands that meet the hypotheses of `loop_memory_and_accumulators` (accumulators), clause by clause.
-/
theorem test_accumulators_applies :
    (x116 = w115.chip.tile (1 : Fin 2).val ∧ 8192 = x116.pc ∧ x116.a.length = 4 ∧ TileReady w115.chip (1 : Fin 2) 1
      Guard.always) ∧
    (x116 = w115.chip.tile (1 : Fin 2).val ∧ 8192 = x116.pc ∧ x116.a.length = 4 ∧ TileReady w115.chip (1 : Fin 2) 8
      Guard.always) :=
  ⟨⟨by decide +kernel, by decide +kernel, by decide +kernel, by constructor <;> decide +kernel⟩,
   ⟨by decide +kernel, by decide +kernel, by decide +kernel, by constructor <;> decide +kernel⟩⟩

/-- States and operands that meet the hypotheses of `vector_arithmetic`, clause by clause. -/
theorem test_vector_arithmetic_applies :
    (x116 = w115.chip.tile (1 : Fin 2).val ∧ x116.v.length = 8 ∧ (∀ (l : List Word), l ∈ x116.v → l.length = 128) ∧
      TileReady w115.chip (1 : Fin 2) (1 * (w115.chip.tile (1 : Fin 2).val).vn) Guard.always ∧ (14 : Nat) < (128 :
      Nat)) ∧
    (x116 = w115.chip.tile (1 : Fin 2).val ∧ x116.v.length = 8 ∧ (∀ (l : List Word), l ∈ x116.v → l.length = 128) ∧
      TileReady w115.chip (1 : Fin 2) (4 * (w115.chip.tile (1 : Fin 2).val).vn) Guard.always ∧ (14 : Nat) < (128 :
      Nat)) ∧
    (x116 = w115.chip.tile (1 : Fin 2).val ∧ x116.v.length = 8 ∧ (∀ (l : List Word), l ∈ x116.v → l.length = 128) ∧
      TileReady w115.chip (1 : Fin 2) (2 * (w115.chip.tile (1 : Fin 2).val).vn) Guard.always ∧ (14 : Nat) < (128 :
      Nat)) :=
  ⟨⟨by decide +kernel, by decide +kernel, by decide +kernel, by constructor <;> decide +kernel, by decide +kernel⟩,
   ⟨by decide +kernel, by decide +kernel, by decide +kernel, by constructor <;> decide +kernel, by decide +kernel⟩,
   ⟨by decide +kernel, by decide +kernel, by decide +kernel, by constructor <;> decide +kernel, by decide +kernel⟩⟩

/-- States and operands that meet the hypotheses of `vector_masks_reductions_and_memory` (vector masks and
reductions), clause by clause. -/
theorem test_vector_masks_and_reductions_applies :
    (x116 = w115.chip.tile (1 : Fin 2).val ∧ 8192 = x116.pc ∧ x116.a.length = 4 ∧ x116.v.length = 8 ∧ (∀ (l : List
      Word), l ∈ x116.v → l.length = 128) ∧ TileReady w115.chip (1 : Fin 2) x116.vn Guard.always ∧ (14 : Nat) < (128
      : Nat)) ∧
    (x116 = w115.chip.tile (1 : Fin 2).val ∧ 8192 = x116.pc ∧ x116.a.length = 4 ∧ x116.v.length = 8 ∧ (∀ (l : List
      Word), l ∈ x116.v → l.length = 128) ∧ TileReady w115.chip (1 : Fin 2) 1 Guard.always ∧ (14 : Nat) < (128 :
      Nat)) :=
  ⟨⟨by decide +kernel, by decide +kernel, by decide +kernel, by decide +kernel, by decide +kernel,
      by constructor <;> decide +kernel, by decide +kernel⟩,
   ⟨by decide +kernel, by decide +kernel, by decide +kernel, by decide +kernel, by decide +kernel,
      by constructor <;> decide +kernel, by decide +kernel⟩⟩

/-- States and operands that meet the hypotheses of `repeats_and_end`, clause by clause. -/
theorem test_repeats_and_end_applies :
    (x120 = w119.chip.tile (1 : Fin 2).val ∧ TileReady w119.chip (1 : Fin 2) 1 Guard.always ∧ x120.stepped = true ∧
      (∀ (k : Nat), k < 4 → (w119.chip.loopSt k).on = false)) ∧
    ((255 : Nat) ≠ { start := (8192 : Nat), len := (2 : Nat), left := (2 : Nat), gi := (4 : Fin 16), inc := (255 : BitVec 8) : Repeat }.start + (4 : Nat) * { start := (8192 : Nat), len := (2 : Nat), left := (2 : Nat), gi := (4 : Fin 16), inc := (255 : BitVec 8) : Repeat }.len) ∧
    ((8200 : Nat) = { start := (8192 : Nat), len := (2 : Nat), left := (2 : Nat), gi := (4 : Fin 16), inc := (255 : BitVec 8) : Repeat }.start + (4 : Nat) * { start := (8192 : Nat), len := (2 : Nat), left := (2 : Nat), gi := (4 : Fin 16), inc := (255 : BitVec 8) : Repeat }.len ∧ (1 : Nat) < { start := (8192 : Nat), len := (2 : Nat), left := (2 : Nat), gi := (4 : Fin 16), inc := (255 : BitVec 8) : Repeat }.left) ∧
    ((8200 : Nat) = { start := (8192 : Nat), len := (2 : Nat), left := (1 : Nat), gi := (4 : Fin 16), inc := (255 : BitVec 8) : Repeat }.start + (4 : Nat) * { start := (8192 : Nat), len := (2 : Nat), left := (1 : Nat), gi := (4 : Fin 16), inc := (255 : BitVec 8) : Repeat }.len ∧ { start := (8192 : Nat), len := (2 : Nat), left := (1 : Nat), gi := (4 : Fin 16), inc := (255 : BitVec 8) : Repeat }.left ≤ (1 : Nat)) :=
  ⟨⟨by decide +kernel, by constructor <;> decide +kernel, by decide +kernel, by decide +kernel⟩,
   by decide +kernel,
   ⟨by decide +kernel, by decide +kernel⟩,
   ⟨by decide +kernel, by decide +kernel⟩⟩

/-- States and operands that meet the hypotheses of `memory_commands_and_scrubbing` (memory commands), clause by
clause. -/
theorem test_memory_commands_applies :
    (w122.chip.Inv ∧ MayWrite w122 Master.window (Reg.retireReg (7 : Fin 8).val) ∧ (254 : Nat) < (256 : Nat)) ∧
    (w122.chip.Inv ∧ MayWrite w122 Master.window (Reg.retireReg (7 : Fin 8).val) ∧ (254 / 32 : Nat) = (7 : Fin
      8).val ∧ BitVec.getLsbD (3221225473 : Word) ((254 : Nat) % (32 : Nat)) = true ∧ w122.chip.memc.retired.getLsbD
      254 = false) ∧
    (w122.chip.Inv ∧ MayWrite w122 Master.window Reg.flcmd ∧ w122.chip.memc.op = none ∧ w122.chip.memc.merge = some
      (983040, some (5 : Word), none) ∧ w122.chip.erased 983040 = true) ∧
    (w122.chip.Inv ∧ MayWrite w122 Master.window Reg.flcmd ∧ fld (3221225473 : Word) (16 : Nat) (16 : Nat) ≠ (61861
      : Nat)) ∧
    (w122.chip.Inv ∧ MayWrite w122 Master.window Reg.chkctl ∧ (∀ (t : Fin 2), fld (3221225473 : Word) 1 2 = ↑t + 1 →
      (w122.chip.tile ↑t).ready = false)) ∧
    (w122.chip.Inv ∧ MayWrite w122 Master.window Reg.logpop ∧ BitVec.getLsbD (3221225473 : Word) (0 : Nat) = true) ∧
    (w123.chip.Inv ∧ MayWrite w123 Master.window Reg.flcmd ∧ w123.chip.up Domain.nvm = true ∧ w123.chip.memc.op =
      none ∧ 983040 ≤ BitVec.toNat (w123.chip.reg Reg.fladdr) ∧ BitVec.toNat (w123.chip.reg Reg.fladdr) < 1040384) ∧
    (w124.chip.Inv ∧ MayWrite w124 Master.window Reg.chkctl ∧ (∃ (t : Fin 2), fld (2 : Word) 1 2 = ↑t + 1 ∧
      (w124.chip.tile ↑t).ready = true)) ∧
    (w125.chip.Inv ∧ w125.chip.memc.op = some (FlashOp.program 1048568 (305419896 : Word) (4294967295 : Word) none)
      ∧ (1048568 : Nat) % (8 : Nat) = (0 : Nat) ∧ (1048568 : Nat) < (1048576 : Nat) ∧ List.Pairwise (fun (p q : Nat
      × Byte) => p.fst < q.fst) w125.chip.ecc ∧ ((1048567 : Nat) < (1048568 : Nat) ∨ (1048568 : Nat) + (8 : Nat) ≤
      (1048567 : Nat))) ∧
    (w127.chip.Inv ∧ w127.chip.memc.op = some (FlashOp.erase 1044480) ∧ (1044480 : Nat) % (4096 : Nat) = (0 : Nat) ∧
      (1044480 : Nat) < (1048576 : Nat) ∧ (1044480 : Nat) ≤ (1048575 : Nat) ∧ (1048575 : Nat) < (1044480 : Nat) +
      (4096 : Nat)) ∧
    (w143.chip.Inv ∧ w143.chip.memc.op = some (FlashOp.erase 1044480) ∧ (1044480 : Nat) % (4096 : Nat) = (0 : Nat) ∧
      (1044480 : Nat) < (1048576 : Nat) ∧ ((1044479 : Nat) < (1044480 : Nat) ∨ (1044480 : Nat) + (4096 : Nat) ≤
      (1044479 : Nat))) :=
  ⟨⟨inv_of (by decide +kernel), by decide +kernel, by decide +kernel⟩,
   ⟨inv_of (by decide +kernel), by decide +kernel, by decide +kernel, by decide +kernel, by decide +kernel⟩,
   ⟨inv_of (by decide +kernel), by decide +kernel, by decide +kernel, by decide +kernel, by decide +kernel⟩,
   ⟨inv_of (by decide +kernel), by decide +kernel, by decide +kernel⟩,
   ⟨inv_of (by decide +kernel), by decide +kernel, by decide +kernel⟩,
   ⟨inv_of (by decide +kernel), by decide +kernel, by decide +kernel⟩,
   ⟨inv_of (by decide +kernel), by decide +kernel, by decide +kernel, by decide +kernel, by decide +kernel,
      by decide +kernel⟩,
   ⟨inv_of (by decide +kernel), by decide +kernel, by decide +kernel⟩,
   ⟨inv_of (by decide +kernel), by decide +kernel, by decide +kernel, by decide +kernel, by decide +kernel,
      by decide +kernel⟩,
   ⟨inv_of (by decide +kernel), by decide +kernel, by decide +kernel, by decide +kernel, by decide +kernel,
      by decide +kernel⟩,
   ⟨inv_of (by decide +kernel), by decide +kernel, by decide +kernel, by decide +kernel, by decide +kernel⟩⟩

/-- States and operands that meet the hypotheses of `memory_commands_and_scrubbing` (scrubbing), clause by clause.
-/
theorem test_scrubbing_applies :
    (w128.chip.Inv ∧ w128.chip.up Domain.sup = true ∧ w128.chip.bit Reg.memctl 0 = true ∧ w128.chip.memc.scrMem = 0
      ∧ w128.chip.memc.scrOff + 4 < 262144 ∧ (5 : Nat) < (256 : Nat)) ∧
    (w129.chip.Inv ∧ w129.chip.up Domain.sup = true ∧ w129.chip.bit Reg.memctl 0 = true ∧ w129.chip.memc.scrMem = 0
      ∧ w129.chip.memc.scrOff < 262144 ∧ 537133048 = 536870912 + w129.chip.memc.scrOff ∧
      w129.chip.memc.retired.getLsbD (sramPage 537133048) = false ∧ w129.chip.parityBad 537133048 4 = true) ∧
    (w130.chip.Inv ∧ w130.chip.up Domain.sup = true ∧ w130.chip.bit Reg.memctl 0 = true ∧ inSram (536870916 : Nat) =
      true ∧ w130.chip.memc.poison.getLsbD (sramPage 536870916) = true ∧ w130.chip.memc.retired.getLsbD (sramPage
      536870916) = false ∧ w130.chip.bit Reg.chkctl 3 = false) ∧
    (w144.chip.Inv ∧ w144.chip.up Domain.sup = true ∧ w144.chip.bit Reg.memctl 0 = true ∧ (8 : Nat) < (1310720 :
      Nat) ∧ Option.map (fun (x : BitVec 64 × Bool) => x.snd) (w144.chip.flashRead 8) = some true) :=
  ⟨⟨inv_of (by decide +kernel), by decide +kernel, by decide +kernel, by decide +kernel, by decide +kernel,
      by decide +kernel⟩,
   ⟨inv_of (by decide +kernel), by decide +kernel, by decide +kernel, by decide +kernel, by decide +kernel,
      by decide +kernel, by decide +kernel, by decide +kernel⟩,
   ⟨inv_of (by decide +kernel), by decide +kernel, by decide +kernel, by decide +kernel, by decide +kernel,
      by decide +kernel, by decide +kernel⟩,
   ⟨inv_of (by decide +kernel), by decide +kernel, by decide +kernel, by decide +kernel, by decide +kernel⟩⟩

/-- States and operands that meet the hypotheses of `recorder` (recorder commands), clause by clause. -/
theorem test_recorder_commands_applies :
    (w132.chip.Inv ∧ MayWrite w132 Master.window Reg.recctl ∧ (4 : Word) = (4 : Word) ∧ w132.chip.up Domain.nvm =
      true ∧ w132.chip.recd.frozen = false) ∧
    (w132.chip.Inv ∧ MayWrite w132 Master.window Reg.recctl ∧ (2 : Word) = (2 : Word) ∧ w132.chip.up Domain.nvm =
      true ∧ w132.chip.recd.frozen = false) ∧
    (w133.chip.Inv ∧ MayWrite w133 Master.window Reg.recctl ∧ (0 : Word) = (0 : Word) ∧ w133.chip.recd.frozen = true
      ∧ w133.chip.recd.hold = [] ∧ w133.chip.recd.held < 64) ∧
    (w134.chip.Inv ∧ w134.chip.up Domain.nvm = true ∧ w134.chip.rf Reg.reccfg 16 16 ≠ 0 ∧ w134.chip.recd.buf ≠ [] ∧
      w134.chip.recd.flBusy = false) ∧
    (w135.chip.Inv ∧ w135.chip.recd.flBusy = true ∧ w135.chip.up Domain.nvm = true ∧ w135.chip.recd.flushing = [{ seq := 1, stamp := 2 : Record }] ∧ { seq := (1 : Nat), stamp := (2 : Nat) : Record }.kind = (0 : Nat) ∧ (3 : Nat) < (32 : Nat)) ∧
    (w135.chip.Inv ∧ (63 : Nat) < (64 : Nat) ∧ w135.chip.recd.ersBusy = some 63 ∧ w135.chip.up Domain.nvm = true ∧
      recAddr ((128 : Nat) * (63 : Nat)) ≤ recAddr (8191 : Nat) ∧ recAddr (8191 : Nat) < recAddr ((128 : Nat) * (63
      : Nat)) + (4096 : Nat)) ∧
    (w136.chip.Inv ∧ w136.chip.up Domain.nvm = true ∧ w136.chip.recd.flBusy = true ∧ w136.chip.recd.flushing = [] ∧
      w136.chip.pwr.pfFlush = false ∧ w136.chip.pwr.shipping = false) :=
  ⟨⟨inv_of (by decide +kernel), by decide +kernel, by decide +kernel, by decide +kernel, by decide +kernel⟩,
   ⟨inv_of (by decide +kernel), by decide +kernel, by decide +kernel, by decide +kernel, by decide +kernel⟩,
   ⟨inv_of (by decide +kernel), by decide +kernel, by decide +kernel, by decide +kernel, by decide +kernel,
      by decide +kernel⟩,
   ⟨inv_of (by decide +kernel), by decide +kernel, by decide +kernel, by decide +kernel, by decide +kernel⟩,
   ⟨inv_of (by decide +kernel), by decide +kernel, by decide +kernel, by decide +kernel, by decide +kernel,
      by decide +kernel⟩,
   ⟨inv_of (by decide +kernel), by decide +kernel, by decide +kernel, by decide +kernel, by decide +kernel,
      by decide +kernel⟩,
   ⟨inv_of (by decide +kernel), by decide +kernel, by decide +kernel, by decide +kernel, by decide +kernel,
      by decide +kernel⟩⟩

/-- States and operands that meet the hypotheses of `recorder` (recorder start views and snapshots), clause by
clause. -/
theorem test_recorder_start_views_and_snapshots_applies :
    (w137.chip.Inv ∧ w137.chip.regGrant Master.window (Reg.win0 7) 4 true = true) ∧
    (w137.chip.Inv ∧ w137.chip.regGrant Master.window (Reg.win1 7) 4 true = true) ∧
    (w137.chip.Inv ∧ w137.chip.regGrant Master.window Reg.snapdata 4 true = true) ∧
    (w139.chip.Inv ∧ (7 : Nat) < (8 : Nat) ∧ w139.chip.recd.snapBusy = some (7, List.replicate 4096 (5 : Byte)) ∧
      w139.chip.up Domain.nvm = true ∧ (List.replicate (4096 : Nat) (5 : Byte)).length = (4096 : Nat) ∧
      w139.chip.reg Reg.snaplock = (255 : Word) ∧ List.Pairwise (fun (p q : Host.Cell) => p.fst < q.fst)
      w139.chip.snap ∧ (4095 : Nat) < (4096 : Nat)) :=
  ⟨⟨inv_of (by decide +kernel), by decide +kernel⟩,
   ⟨inv_of (by decide +kernel), by decide +kernel⟩,
   ⟨inv_of (by decide +kernel), by decide +kernel⟩,
   ⟨inv_of (by decide +kernel), by decide +kernel, by decide +kernel, by decide +kernel, by decide +kernel,
      by decide +kernel, by decide +kernel, by decide +kernel⟩⟩

/-- States and operands that meet the hypotheses of `flash_code`, clause by clause. -/
theorem test_flash_code_applies :
    (x140.erased 8 = false ∧ x140.flashChk 8 = eccBits fd ∧ x140.flashData 8 = fd) ∧
    (x141.erased 15 = false ∧ x141.flashChk 15 = eccBits fd ∧ (63 : Nat) < (64 : Nat) ∧ x141.flashData 15 = fd ^^^
      BitVec.ofNat 64 1 <<< 63) ∧
    (x142.erased 15 = false ∧ x142.flashChk 15 = eccBits fd ∧ (63 : Nat) < (64 : Nat) ∧ (0 : Nat) < (64 : Nat) ∧ (63
      : Nat) ≠ (0 : Nat) ∧ x142.flashData 15 = fd ^^^ BitVec.ofNat 64 1 <<< 63 ^^^ BitVec.ofNat 64 1 <<< 0) :=
  ⟨⟨by decide +kernel, by decide +kernel, by decide +kernel⟩,
   ⟨by decide +kernel, by decide +kernel, by decide +kernel, by decide +kernel⟩,
   ⟨by decide +kernel, by decide +kernel, by decide +kernel, by decide +kernel, by decide +kernel,
      by decide +kernel⟩⟩

/-- States and operands that meet the hypotheses of `analog_acquisition` (conversions and the reference), clause by
clause. -/
theorem test_conversions_and_the_reference_applies :
    (w146.chip.Inv ∧ w146.chip.up Domain.afe = true ∧ (w146.chip.conv (1 : Fin 2).val).busy = some { ch := 23, cls := ConvClass.vertex, start := 7, refuv := 2500000, settled := true : Conversion } ∧ { ch := (23 : Nat), cls := ConvClass.vertex, start := (7 : Nat), refuv := (2500000 : Nat), settled := true : Conversion }.ch < (24 : Nat) ∧ w146.chip.adc.results.length = 24) ∧
    (w146.chip.Inv ∧ MayWrite w146 Master.window Reg.adcref ∧ fld (5 : Word) (0 : Nat) (2 : Nat) < (3 : Nat) ∧ fld
      (5 : Word) 0 2 ≠ w146.chip.rf Reg.adcref 0 2 ∧ (∀ (n : Nat), n < 8 → w146.chip.bit (Reg.cmpCfg n) 2 = false))
      ∧
    (w147.chip.Inv ∧ w147.chip.up Domain.afe = true ∧ w147.chip.adc.refLost = true ∧ w147.chip.adc.inRange = 1 ∧
      w147.chip.adc.settleAt = none) ∧
    (w147.chip.Inv ∧ MayWrite w147 Master.window Reg.adcref ∧ fld (3 : Word) (0 : Nat) (2 : Nat) = (3 : Nat)) ∧
    (w148.chip.Inv ∧ MayWrite w148 Master.window Reg.injreq ∧ (w148.chip.conv 0).busy.isSome = true ∧
      (w148.chip.conv 1).busy.isSome = true ∧ fld (1 : Word) (0 : Nat) (5 : Nat) < (24 : Nat) ∧ fld (1 : Word) (8 :
      Nat) (2 : Nat) = (0 : Nat) ∧ w148.chip.adc.injQ.length < 4) ∧
    (w149.chip.Inv ∧ MayWrite w149 Master.window Reg.injreq ∧ (w149.chip.conv 0).busy.isSome = true ∧
      (w149.chip.conv 1).busy.isSome = true ∧ fld (23 : Word) (0 : Nat) (5 : Nat) < (24 : Nat) ∧ fld (23 : Word) (8
      : Nat) (2 : Nat) = (0 : Nat) ∧ 4 ≤ w149.chip.adc.injQ.length) ∧
    (w148.chip.Inv ∧ MayWrite w148 Master.window Reg.injreq ∧ fld (768 : Word) (8 : Nat) (2 : Nat) = (3 : Nat)) :=
  ⟨⟨inv_of (by decide +kernel), by decide +kernel, by decide +kernel, by decide +kernel, by decide +kernel⟩,
   ⟨inv_of (by decide +kernel), by decide +kernel, by decide +kernel, by decide +kernel, by decide +kernel⟩,
   ⟨inv_of (by decide +kernel), by decide +kernel, by decide +kernel, by decide +kernel, by decide +kernel⟩,
   ⟨inv_of (by decide +kernel), by decide +kernel, by decide +kernel⟩,
   ⟨inv_of (by decide +kernel), by decide +kernel, by decide +kernel, by decide +kernel, by decide +kernel,
      by decide +kernel, by decide +kernel⟩,
   ⟨inv_of (by decide +kernel), by decide +kernel, by decide +kernel, by decide +kernel, by decide +kernel,
      by decide +kernel, by decide +kernel⟩,
   ⟨inv_of (by decide +kernel), by decide +kernel, by decide +kernel⟩⟩

/-- States and operands that meet the hypotheses of `analog_acquisition` (calibration and regular lists), clause by
clause. -/
theorem test_calibration_and_regular_lists_applies :
    (w150.chip.Inv ∧ MayWrite w150 Master.window Reg.adccal ∧ (w150.chip.conv 0).busy.isSome = true ∧
      (w150.chip.conv 1).busy.isSome = true ∧ w150.chip.adcEn 0 = true ∧ (w150.chip.conv 0).calReq = false ∧
      w150.chip.adc.settled = true) ∧
    (w150.chip.Inv ∧ (4 : Fin 5) ≠ (0 : Fin 5) ∧ MayWrite w150 Master.window (rseqReg (1 : Fin 2) (4 : Fin 5)) ∧
      w150.chip.bit (Reg.rseqCtl (1 : Fin 2).val) 8 = false ∧ (∀ (j : Nat), j < (4 : Nat) → fld (0 : Word) ((8 :
      Nat) * j) (5 : Nat) < (24 : Nat))) ∧
    (w151.chip.Inv ∧ MayWrite w151 Master.window Reg.adccal ∧ (w151.chip.conv 0).busy.isSome = true ∧
      (w151.chip.conv 1).busy.isSome = true ∧ w151.chip.adcEn 0 = true ∧ (w151.chip.conv 0).calReq = false ∧
      w151.chip.adc.settled = false) ∧
    (w152.chip.Inv ∧ w152.chip.up Domain.afe = true ∧ (w152.chip.conv (1 : Fin 2).val).calRun = true ∧
      (w152.chip.conv (1 : Fin 2).val).busy = none ∧ (w152.chip.conv (1 : Fin 2).val).calStep < 16 ∧
      w152.chip.adc.injQ = []) ∧
    (w152.chip.Inv ∧ w152.chip.up Domain.afe = true ∧ (w152.chip.conv (1 : Fin 2).val).calRun = true ∧
      (w152.chip.conv (1 : Fin 2).val).busy = none ∧ 15 ≤ (w152.chip.conv (1 : Fin 2).val).calStep ∧
      w152.chip.adc.cal.length = 2) ∧
    (w152.chip.Inv ∧ (4 : Fin 5) ≠ (0 : Fin 5) ∧ MayWrite w152 Master.window (rseqReg (1 : Fin 2) (4 : Fin 5)) ∧
      w152.chip.bit (Reg.rseqCtl (1 : Fin 2).val) 8 = true) ∧
    (w152.chip.Inv ∧ MayWrite w152 Master.window (rseqReg (1 : Fin 2) (0 : Fin 5)) ∧ w152.chip.bit (Reg.rseqCtl (1 :
      Fin 2).val) 8 = true ∧ fld (1 : Word) 0 4 ≠ w152.chip.rf (Reg.rseqCtl (1 : Fin 2).val) 0 4) ∧
    (w153.chip.Inv ∧ w153.chip.up Domain.afe = true ∧ w153.chip.up Domain.tgrid = true ∧ w153.chip.adcEn (1 : Fin
      2).val = true ∧ w153.chip.adc.conv.length = 2 ∧ w153.chip.bit (Reg.rseqCtl (1 : Fin 2).val) 8 = true ∧
      (w153.chip.conv (1 : Fin 2).val).passEnd = true ∧ (w153.chip.conv (1 : Fin 2).val).busy = none ∧
      (w153.chip.conv (1 : Fin 2).val).vtx = [] ∧ (w153.chip.conv (1 : Fin 2).val).calReq = false ∧ (w153.chip.conv
      (1 : Fin 2).val).calRun = false ∧ w153.chip.adc.injQ = [] ∧ w153.chip.adc.vtxNext = []) :=
  ⟨⟨inv_of (by decide +kernel), by decide +kernel, by decide +kernel, by decide +kernel, by decide +kernel,
      by decide +kernel, by decide +kernel⟩,
   ⟨inv_of (by decide +kernel), by decide +kernel, by decide +kernel, by decide +kernel, by decide +kernel⟩,
   ⟨inv_of (by decide +kernel), by decide +kernel, by decide +kernel, by decide +kernel, by decide +kernel,
      by decide +kernel, by decide +kernel⟩,
   ⟨inv_of (by decide +kernel), by decide +kernel, by decide +kernel, by decide +kernel, by decide +kernel,
      by decide +kernel⟩,
   ⟨inv_of (by decide +kernel), by decide +kernel, by decide +kernel, by decide +kernel, by decide +kernel,
      by decide +kernel⟩,
   ⟨inv_of (by decide +kernel), by decide +kernel, by decide +kernel, by decide +kernel⟩,
   ⟨inv_of (by decide +kernel), by decide +kernel, by decide +kernel, by decide +kernel⟩,
   ⟨inv_of (by decide +kernel), by decide +kernel, by decide +kernel, by decide +kernel, by decide +kernel,
      by decide +kernel, by decide +kernel, by decide +kernel, by decide +kernel, by decide +kernel,
      by decide +kernel, by decide +kernel, by decide +kernel⟩⟩

/-- States and operands that meet the hypotheses of `connecting_and_disconnecting`, clause by clause. -/
theorem test_connecting_and_disconnecting_applies :
    (w154.chip.Inv ∧ w154.chip.up Domain.afe = true ∧ MayWrite w154 Master.window Reg.gcmd ∧ w154.chip.pwr.cur =
      ShelfState.standby ∧ w154.chip.gate.gst = Gst.open_ ∧ w154.chip.gate.cause = (0 : BitVec 13) ∧
      w154.chip.pwr.latch = false ∧ w154.chip.pwr.fuseDiff = false ∧ w154.chip.pins.gateFltLow = false ∧
      w154.chip.confbOpen = true ∧ w154.chip.sensed = true ∧ w154.chip.adc.settled = true ∧ ↑(BitVec.toNat
      (w154.chip.reg Reg.uvlim)) ≤ w154.chip.gate.vrack ∧ w154.chip.gate.vrack ≤ ↑(BitVec.toNat (w154.chip.reg
      Reg.ovlim)) ∧ w154.chip.leaks = false) ∧
    (w155.chip.Inv ∧ w155.chip.up Domain.afe = true ∧ MayWrite w155 Master.window Reg.gcmd ∧ w155.chip.pwr.latch =
      true) ∧
    (w156.chip.Inv ∧ w156.chip.up Domain.afe = true ∧ w156.chip.gateLevels = [] ∧ w156.chip.gate.gst = Gst.check) ∧
    (w157.chip.Inv ∧ w157.chip.up Domain.afe = true ∧ w157.chip.gateLevels = [] ∧ w157.chip.gate.gst = Gst.ramp ∧
      w157.chip.agrees w157.chip.gate.vrack w157.chip.gate.vsw = true ∧ w157.chip.up Domain.tgrid = true) ∧
    (w158.chip.Inv ∧ w158.chip.up Domain.afe = true ∧ w158.chip.gateLevels = [] ∧ w158.chip.gate.gst = Gst.close ∧
      w158.chip.pins.confb.length = 2 ∧ w158.chip.confb (1 - (1 : Fin 2).val) = true) ∧
    (w159.chip.Inv ∧ w159.chip.up Domain.afe = true ∧ w159.chip.gateLevels = [] ∧ w159.chip.gate.gst = Gst.closed ∧
      MayWrite w159 Master.window Reg.gcmd) ∧
    (w160.chip.Inv ∧ w160.chip.up Domain.afe = true ∧ w160.chip.gate.gst = Gst.opening ∧ w160.chip.gate.conHigh =
      true) ∧
    (w161.chip.Inv ∧ w161.chip.up Domain.afe = true ∧ w161.chip.gate.gst = Gst.opening ∧ w161.chip.gate.conHigh =
      false ∧ w161.chip.gate.ioff = true ∧ w161.chip.pins.confb.length = 2 ∧ w161.chip.confb (1 - (1 : Fin 2).val) =
      false) ∧
    (w162.chip.Inv ∧ w162.chip.up Domain.afe = true ∧ w162.chip.gate.gst = Gst.prechg ∧ w162.chip.gate.pretDone =
      true) :=
  ⟨⟨inv_of (by decide +kernel), by decide +kernel, by decide +kernel, by decide +kernel, by decide +kernel,
      by decide +kernel, by decide +kernel, by decide +kernel, by decide +kernel, by decide +kernel,
      by decide +kernel, by decide +kernel, by decide +kernel, by decide +kernel, by decide +kernel⟩,
   ⟨inv_of (by decide +kernel), by decide +kernel, by decide +kernel, by decide +kernel⟩,
   ⟨inv_of (by decide +kernel), by decide +kernel, by decide +kernel, by decide +kernel⟩,
   ⟨inv_of (by decide +kernel), by decide +kernel, by decide +kernel, by decide +kernel, by decide +kernel,
      by decide +kernel⟩,
   ⟨inv_of (by decide +kernel), by decide +kernel, by decide +kernel, by decide +kernel, by decide +kernel,
      by decide +kernel⟩,
   ⟨inv_of (by decide +kernel), by decide +kernel, by decide +kernel, by decide +kernel, by decide +kernel⟩,
   ⟨inv_of (by decide +kernel), by decide +kernel, by decide +kernel, by decide +kernel⟩,
   ⟨inv_of (by decide +kernel), by decide +kernel, by decide +kernel, by decide +kernel, by decide +kernel,
      by decide +kernel, by decide +kernel⟩,
   ⟨inv_of (by decide +kernel), by decide +kernel, by decide +kernel, by decide +kernel⟩⟩

/-- States and operands that meet the hypotheses of `protection_and_gate_registers` (protection), clause by clause.
-/
theorem test_protection_applies :
    (w163.chip.Inv ∧ w163.chip.up Domain.afe = true ∧ w163.chip.gate.cause = (0 : BitVec 13) ∧ w163.chip.gate.gst =
      Gst.prechg ∧ w163.chip.gate.pretDone = false ∧ w163.chip.gate.ishAbs < BitVec.toNat (w163.chip.reg
      Reg.preshi)) ∧
    (w164.chip.Inv ∧ w164.chip.up Domain.afe = true ∧ w164.chip.gate.cause = (0 : BitVec 13) ∧ w164.chip.gate.gst =
      Gst.prechg ∧ w164.chip.gate.pretDone = false ∧ BitVec.toNat (w164.chip.reg Reg.preshi) ≤
      w164.chip.gate.ishAbs) ∧
    (w165.chip.Inv ∧ w165.chip.up Domain.afe = true ∧ w165.chip.gate.cause = (0 : BitVec 13) ∧ w165.chip.gate.gst =
      Gst.ramp ∧ w165.chip.agrees w165.chip.gate.vrack w165.chip.gate.vsw = false) ∧
    (w166.chip.Inv ∧ w166.chip.up Domain.afe = true ∧ w166.chip.gate.cause = (0 : BitVec 13) ∧ w166.chip.gate.gst =
      Gst.closed ∧ w166.chip.gate.conBad.getD ((1 : Fin 2).val) none = some 5) ∧
    (w167.chip.Inv ∧ w167.chip.up Domain.afe = true ∧ w167.chip.gate.cause = (0 : BitVec 13) ∧ w167.chip.gate.gst =
      Gst.closed ∧ w167.chip.rf (Reg.cmpCfg (7 : Fin 8).val) 0 2 ≠ 0 ∧ w167.chip.bit (Reg.cmpCfg (7 : Fin 8).val) 2
      = true ∧ w167.chip.gate.cmpOut.length = 8) ∧
    (w168.chip.Inv ∧ w168.chip.up Domain.afe = true ∧ w168.chip.gate.cause = (0 : BitVec 13) ∧ w168.chip.rf
      (Reg.cmpCfg (7 : Fin 8).val) 0 2 ≠ 0 ∧ w168.chip.bit (Reg.cmpCfg (7 : Fin 8).val) 2 = false) ∧
    (w172.chip.Inv ∧ w172.chip.up Domain.afe = true ∧ w172.chip.gate.cause = (0 : BitVec 13) ∧ w172.chip.gate.gst =
      Gst.closed ∧ w172.chip.bit Reg.gcfg 2 = true ∧ w172.chip.up Domain.ifc = true ∧ w172.chip.tmax 0 = 0 ∧
      (w172.chip.input 0).unstable = false ∧ (w172.chip.input 0).level = true) :=
  ⟨⟨inv_of (by decide +kernel), by decide +kernel, by decide +kernel, by decide +kernel, by decide +kernel,
      by decide +kernel⟩,
   ⟨inv_of (by decide +kernel), by decide +kernel, by decide +kernel, by decide +kernel, by decide +kernel,
      by decide +kernel⟩,
   ⟨inv_of (by decide +kernel), by decide +kernel, by decide +kernel, by decide +kernel, by decide +kernel⟩,
   ⟨inv_of (by decide +kernel), by decide +kernel, by decide +kernel, by decide +kernel, by decide +kernel⟩,
   ⟨inv_of (by decide +kernel), by decide +kernel, by decide +kernel, by decide +kernel, by decide +kernel,
      by decide +kernel, by decide +kernel⟩,
   ⟨inv_of (by decide +kernel), by decide +kernel, by decide +kernel, by decide +kernel, by decide +kernel⟩,
   ⟨inv_of (by decide +kernel), by decide +kernel, by decide +kernel, by decide +kernel, by decide +kernel,
      by decide +kernel, by decide +kernel, by decide +kernel, by decide +kernel⟩⟩

/-- States and operands that meet the hypotheses of `protection_and_gate_registers` (gate registers), clause by
clause. -/
theorem test_gate_registers_applies :
    (w170.chip.Inv ∧ MayWrite w170 Master.window Reg.causeclr ∧ w170.chip.gate.gst = Gst.open_) ∧
    (w170.chip.Inv ∧ MayWrite w170 Master.window Reg.ovlim ∧ w170.chip.fovp < BitVec.toNat (4294967295 : Word)) ∧
    (w170.chip.Inv ∧ MayWrite w170 Master.window Reg.uvlim) ∧
    (w170.chip.Inv ∧ MayWrite w170 Master.window Reg.oclim ∧ w170.chip.focp < BitVec.toNat (4294967295 : Word)) ∧
    (w170.chip.Inv ∧ MayWrite w170 Master.window Reg.eldcmt ∧ w170.chip.gate.gst = Gst.open_) ∧
    (w171.chip.Inv ∧ (Reg.cmpTh 7 = match CmpWord.th with | CmpWord.cfg => Reg.cmpCfg (7 : Fin 8).val | CmpWord.th => Reg.cmpTh (7 : Fin 8).val) ∧ MayWrite w171 Master.window (Reg.cmpTh 7) ∧ w171.chip.gate.gst = Gst.open_ ∧ w171.chip.rf (Reg.cmpCfg (7 : Fin 8).val) 0 2 < 3 ∧ (CmpWord.th = CmpWord.cfg → fld (5 : Word) 0 2 < 3) ∧ (w171.chip.plainWrite (Reg.cmpTh 7) (5 : Word)).rf (Reg.cmpCfg (7 : Fin 8).val) 0 2 ≠ 0) ∧
    (w167.chip.Inv ∧ MayWrite w167 Master.window Reg.causeclr ∧ w167.chip.gate.gst ≠ Gst.open_) ∧
    (w167.chip.Inv ∧ MayWrite w167 Master.window Reg.eldcmt ∧ w167.chip.gate.gst ≠ Gst.open_) ∧
    (w167.chip.Inv ∧ (Reg.cmpCfg 7 = match CmpWord.cfg with | CmpWord.cfg => Reg.cmpCfg (7 : Fin 8).val | CmpWord.th => Reg.cmpTh (7 : Fin 8).val) ∧ MayWrite w167 Master.window (Reg.cmpCfg 7) ∧ w167.chip.bit (Reg.cmpCfg (7 : Fin 8).val) 2 = true ∧ w167.chip.gate.gst = Gst.closed) ∧
    (w173.chip.Inv ∧ MayWrite w173 Master.window Reg.uvlim ∧ BitVec.toNat (0 : Word) < w173.chip.fuvp) :=
  ⟨⟨inv_of (by decide +kernel), by decide +kernel, by decide +kernel⟩,
   ⟨inv_of (by decide +kernel), by decide +kernel, by decide +kernel⟩,
   ⟨inv_of (by decide +kernel), by decide +kernel⟩,
   ⟨inv_of (by decide +kernel), by decide +kernel, by decide +kernel⟩,
   ⟨inv_of (by decide +kernel), by decide +kernel, by decide +kernel⟩,
   ⟨inv_of (by decide +kernel), by decide +kernel, by decide +kernel, by decide +kernel, by decide +kernel,
      by decide +kernel, by decide +kernel⟩,
   ⟨inv_of (by decide +kernel), by decide +kernel, by decide +kernel⟩,
   ⟨inv_of (by decide +kernel), by decide +kernel, by decide +kernel⟩,
   ⟨inv_of (by decide +kernel), by decide +kernel, by decide +kernel, by decide +kernel, by decide +kernel⟩,
   ⟨inv_of (by decide +kernel), by decide +kernel, by decide +kernel⟩⟩

/-- States and operands that meet the hypotheses of `set_point_link`, clause by clause. -/
theorem test_set_point_link_applies :
    (w174.chip.Inv ∧ w174.chip.splOn = true ∧ w174.chip.spl.e < 2 ^ 24 ∧ (mkF 0 16777215 3 0 0).seq.toNat =
      w174.chip.spl.e % 4 ∧ splPasses (mkF 0 16777215 3 0 0) 0 w174.chip.spl.e = true ∧ (mkF (0 : Nat) (16777215 :
      Nat) (3 : Nat) (0 : Nat) (0 : Nat)).loop = (0 : Fin 4) ∧ (mkF (0 : Nat) (16777215 : Nat) (3 : Nat) (0 : Nat)
      (0 : Nat)).arg = (0 : BitVec 24) ∧ wf (mkF (0 : Nat) (16777215 : Nat) (3 : Nat) (0 : Nat) (0 : Nat)) (0 : Nat)
      = word (bytesVal (splBytes (mkF (0 : Nat) (16777215 : Nat) (3 : Nat) (0 : Nat) (0 : Nat)) (0 : Nat)))) ∧
    (w175.chip.Inv ∧ w175.chip.splOn = true ∧ w175.chip.spl.e < 2 ^ 24 ∧ (mkF 0 5 1 2 0).seq.toNat = w175.chip.spl.e
      % 4 ∧ splPasses (mkF 0 5 1 2 0) 0 w175.chip.spl.e = true ∧ (mkF (0 : Nat) (5 : Nat) (1 : Nat) (2 : Nat) (0 :
      Nat)).loop ≠ (0 : Fin 4) ∧ wf (mkF (0 : Nat) (5 : Nat) (1 : Nat) (2 : Nat) (0 : Nat)) (0 : Nat) = word
      (bytesVal (splBytes (mkF (0 : Nat) (5 : Nat) (1 : Nat) (2 : Nat) (0 : Nat)) (0 : Nat)))) ∧
    (w175.chip.Inv ∧ w175.chip.splOn = true ∧ w175.chip.spl.e < 2 ^ 24 ∧ (mkF 1 5 1 2 0).seq.toNat = w175.chip.spl.e
      % 4 ∧ splPasses (mkF 1 5 1 2 0) 1 w175.chip.spl.e = true ∧ w175.chip.splModeBad ↑(mkF 1 5 1 2 0).loop = true ∧
      wf (mkF (1 : Nat) (5 : Nat) (1 : Nat) (2 : Nat) (0 : Nat)) (1 : Nat) = word (bytesVal (splBytes (mkF (1 : Nat)
      (5 : Nat) (1 : Nat) (2 : Nat) (0 : Nat)) (1 : Nat)))) ∧
    (w175.chip.Inv ∧ w175.chip.splOn = true ∧ w175.chip.spl.e < 2 ^ 24 ∧ (mkF 1 5 1 2 0).seq.toNat = w175.chip.spl.e
      % 4 ∧ splPasses (mkF 1 5 1 2 0) 0 w175.chip.spl.e = false) ∧
    (w176.chip.Inv ∧ w176.chip.splOn = true ∧ w176.chip.spl.e < 2 ^ 24 ∧ (mkF 1 5 1 2 16777215).seq.toNat =
      w176.chip.spl.e % 4 ∧ splPasses (mkF 1 5 1 2 16777215) 1 w176.chip.spl.e = true ∧ w176.chip.splModeBad ↑(mkF 1
      5 1 2 16777215).loop = false ∧ w176.chip.splOutside (↑(mkF 1 5 1 2 16777215).loop) (mkF 1 5 1 2
      16777215).arg.toNat = true ∧ wf (mkF (1 : Nat) (5 : Nat) (1 : Nat) (2 : Nat) (16777215 : Nat)) (1 : Nat) =
      word (bytesVal (splBytes (mkF (1 : Nat) (5 : Nat) (1 : Nat) (2 : Nat) (16777215 : Nat)) (1 : Nat)))) ∧
    (w177.chip.Inv ∧ w177.chip.splOn = true ∧ w177.chip.spl.e < 2 ^ 24 ∧ (mkF 1 5 1 2 0).seq.toNat = w177.chip.spl.e
      % 4 ∧ splPasses (mkF 1 5 1 2 0) 1 w177.chip.spl.e = true ∧ w177.chip.splModeBad ↑(mkF 1 5 1 2 0).loop = false
      ∧ w177.chip.splOutside (↑(mkF 1 5 1 2 0).loop) (mkF 1 5 1 2 0).arg.toNat = false ∧ w177.chip.spl.goals.length
      < 8 ∧ wf (mkF (1 : Nat) (5 : Nat) (1 : Nat) (2 : Nat) (0 : Nat)) (1 : Nat) = word (bytesVal (splBytes (mkF (1
      : Nat) (5 : Nat) (1 : Nat) (2 : Nat) (0 : Nat)) (1 : Nat)))) ∧
    (w178.chip.Inv ∧ w178.chip.splOn = true ∧ w178.chip.spl.e < 2 ^ 24 ∧ (mkF 1 5 1 2 0).seq.toNat = w178.chip.spl.e
      % 4 ∧ splPasses (mkF 1 5 1 2 0) 1 w178.chip.spl.e = true ∧ w178.chip.splModeBad ↑(mkF 1 5 1 2 0).loop = false
      ∧ w178.chip.splOutside (↑(mkF 1 5 1 2 0).loop) (mkF 1 5 1 2 0).arg.toNat = false ∧ 8 ≤
      w178.chip.spl.goals.length) ∧
    (w179.chip.Inv ∧ w179.chip.splOn = true ∧ w179.chip.spl.e < 2 ^ 24 ∧ (mkF 2 5 1 0 0).seq.toNat = w179.chip.spl.e % 4 ∧ splPasses (mkF 2 5 1 0 0) 2 w179.chip.spl.e = true ∧ (mkF (2 : Nat) (5 : Nat) (1 : Nat) (0 : Nat) (0 : Nat)).loop = (0 : Fin 4) ∧ (mkF (2 : Nat) (5 : Nat) (1 : Nat) (0 : Nat) (0 : Nat)).arg = (0 : BitVec 24) ∧ w179.chip.spl.notices = [{ body := { lseq := 1, loop := 2, kind := 3 : NoticeBody }, seq := 4, tick := 99 : Notice }, { body := { lseq := 1, loop := 2, kind := 3 : NoticeBody }, seq := 4, tick := 99 : Notice }] ∧ { body := { lseq := 1, loop := 2, kind := 3 : NoticeBody }, seq := 4, tick := 99 : Notice }.tick < w179.chip.tg.tick ∧ wf (mkF (2 : Nat) (5 : Nat) (1 : Nat) (0 : Nat) (0 : Nat)) (2 : Nat) = word (bytesVal (splBytes (mkF (2 : Nat) (5 : Nat) (1 : Nat) (0 : Nat) (0 : Nat)) (2 : Nat)))) ∧
    (w175.chip.Inv ∧ w175.chip.splOn = true ∧ w175.chip.spl.e < 2 ^ 24 ∧ (mkF 3 5 1 3 0).seq.toNat = w175.chip.spl.e
      % 4 ∧ splPasses (mkF 3 5 1 3 0) 3 w175.chip.spl.e = true ∧ (mkF (3 : Nat) (5 : Nat) (1 : Nat) (3 : Nat) (0 :
      Nat)).arg = (0 : BitVec 24) ∧ wf (mkF (3 : Nat) (5 : Nat) (1 : Nat) (3 : Nat) (0 : Nat)) (3 : Nat) = word
      (bytesVal (splBytes (mkF (3 : Nat) (5 : Nat) (1 : Nat) (3 : Nat) (0 : Nat)) (3 : Nat)))) ∧
    (w175.chip.Inv ∧ w175.chip.splOn = true ∧ w175.chip.spl.e < 2 ^ 24 ∧ (mkF 4 5 1 3 0).seq.toNat = w175.chip.spl.e
      % 4 ∧ (3 : Nat) < BitVec.toNat (4 : BitVec 4) ∧ (4 : BitVec 4) ≠ (15 : BitVec 4) ∧ splPasses (mkF 4 5 1 3 0)
      (BitVec.toNat (4 : BitVec 4)) w175.chip.spl.e = true ∧ wf (mkF (4 : Nat) (5 : Nat) (1 : Nat) (3 : Nat) (0 :
      Nat)) (4 : Nat) = word (bytesVal (splBytes (mkF (4 : Nat) (5 : Nat) (1 : Nat) (3 : Nat) (0 : Nat))
      (BitVec.toNat (4 : BitVec 4))))) ∧
    (w175.chip.Inv ∧ w175.chip.splOn = true ∧ w175.chip.spl.e < 2 ^ 24 ∧ (mkF 15 4294967295 1 3 16777215).seq.toNat
      = w175.chip.spl.e % 4 ∧ splPasses (mkF (15 : Nat) (4294967295 : Nat) (1 : Nat) (3 : Nat) (16777215 : Nat)) (15
      : Nat) (4294967295 : Nat) = true) :=
  ⟨⟨inv_of (by decide +kernel), by decide +kernel, by decide +kernel, by decide +kernel, by decide +kernel,
      by decide +kernel, by decide +kernel, by decide +kernel⟩,
   ⟨inv_of (by decide +kernel), by decide +kernel, by decide +kernel, by decide +kernel, by decide +kernel,
      by decide +kernel, by decide +kernel⟩,
   ⟨inv_of (by decide +kernel), by decide +kernel, by decide +kernel, by decide +kernel, by decide +kernel,
      by decide +kernel, by decide +kernel⟩,
   ⟨inv_of (by decide +kernel), by decide +kernel, by decide +kernel, by decide +kernel, by decide +kernel⟩,
   ⟨inv_of (by decide +kernel), by decide +kernel, by decide +kernel, by decide +kernel, by decide +kernel,
      by decide +kernel, by decide +kernel, by decide +kernel⟩,
   ⟨inv_of (by decide +kernel), by decide +kernel, by decide +kernel, by decide +kernel, by decide +kernel,
      by decide +kernel, by decide +kernel, by decide +kernel, by decide +kernel⟩,
   ⟨inv_of (by decide +kernel), by decide +kernel, by decide +kernel, by decide +kernel, by decide +kernel,
      by decide +kernel, by decide +kernel, by decide +kernel⟩,
   ⟨inv_of (by decide +kernel), by decide +kernel, by decide +kernel, by decide +kernel, by decide +kernel,
      by decide +kernel, by decide +kernel, by decide +kernel, by decide +kernel, by decide +kernel⟩,
   ⟨inv_of (by decide +kernel), by decide +kernel, by decide +kernel, by decide +kernel, by decide +kernel,
      by decide +kernel, by decide +kernel⟩,
   ⟨inv_of (by decide +kernel), by decide +kernel, by decide +kernel, by decide +kernel, by decide +kernel,
      by decide +kernel, by decide +kernel, by decide +kernel⟩,
   ⟨inv_of (by decide +kernel), by decide +kernel, by decide +kernel, by decide +kernel, by decide +kernel⟩⟩

/-- States and operands that meet the hypotheses of `set_point_link` (set point link upkeep), clause by clause. -/
theorem test_set_point_link_upkeep_applies :
    (w180.chip.Inv ∧ w180.chip.splOn = true ∧ w180.chip.spl.e < 2 ^ 24 ∧ ((mkF 0 16777215 3 0 0).seq.toNat + 1) % 4
      = w180.chip.spl.e % 4 ∧ splPasses (mkF 0 16777215 3 0 0) 0 ((w180.chip.spl.e + 2 ^ 24 - 1) % 2 ^ 24) = true ∧
      w180.chip.spl.lastFrame = some (word (bytesVal (splBytes (mkF 0 16777215 3 0 0) 0))) ∧ w180.chip.spl.lastByte
      = (225 : Byte)) ∧
    (w180.chip.Inv ∧ MayWrite w180 Master.window Reg.splctl ∧ BitVec.getLsbD (5 : Word) (2 : Nat) = true ∧
      BitVec.getLsbD (5 : Word) (0 : Nat) = true) ∧
    (w181.chip.Inv ∧ w181.chip.splOn = true ∧ w181.chip.spl.e < 2 ^ 24 ∧ ((mkF 0 16777215 3 0 0).seq.toNat + 1) % 4
      = w181.chip.spl.e % 4 ∧ splPasses (mkF 0 16777215 3 0 0) 0 ((w181.chip.spl.e + 2 ^ 24 - 1) % 2 ^ 24) = true ∧
      w181.chip.spl.lastFrame ≠ some (word (bytesVal (splBytes (mkF 0 16777215 3 0 0) 0)))) ∧
    (w181.chip.Inv ∧ w181.chip.up Domain.ifc = true ∧ w181.chip.spl.notices ≠ [] ∧ w181.chip.spl.pulseDue = true ∧
      w181.chip.bit Reg.splctl 0 = true ∧ w181.chip.bit Reg.splctl 1 = true ∧ w181.chip.spl.pulseEnd ≤
      w181.chip.tg.tick) ∧
    (w181.chip.Inv ∧ MayWrite w181 Master.window Reg.splctl ∧ BitVec.getLsbD (1 : Word) (2 : Nat) = false ∧
      BitVec.getLsbD (1 : Word) (0 : Nat) = true) ∧
    (w182.chip.Inv ∧ w182.chip.up Domain.ifc = true ∧ w182.chip.spl.notices ≠ [] ∧ w182.chip.spl.pulseDue = false ∧
      w182.chip.rf Reg.splctl 8 8 ≠ 0 ∧ w182.chip.splOn = true ∧ w182.chip.bit Reg.splctl 1 = true ∧ w182.chip.up
      Domain.tgrid = true ∧ w182.chip.spl.pulseEnd ≤ w182.chip.tg.tick) ∧
    (w182.chip.Inv ∧ MayWrite w182 Master.window Reg.splctl ∧ BitVec.getLsbD (0 : Word) (2 : Nat) = false ∧
      BitVec.getLsbD (0 : Word) (0 : Nat) = false) :=
  ⟨⟨inv_of (by decide +kernel), by decide +kernel, by decide +kernel, by decide +kernel, by decide +kernel,
      by decide +kernel, by decide +kernel⟩,
   ⟨inv_of (by decide +kernel), by decide +kernel, by decide +kernel, by decide +kernel⟩,
   ⟨inv_of (by decide +kernel), by decide +kernel, by decide +kernel, by decide +kernel, by decide +kernel,
      by decide +kernel⟩,
   ⟨inv_of (by decide +kernel), by decide +kernel, by decide +kernel, by decide +kernel, by decide +kernel,
      by decide +kernel, by decide +kernel⟩,
   ⟨inv_of (by decide +kernel), by decide +kernel, by decide +kernel, by decide +kernel⟩,
   ⟨inv_of (by decide +kernel), by decide +kernel, by decide +kernel, by decide +kernel, by decide +kernel,
      by decide +kernel, by decide +kernel, by decide +kernel, by decide +kernel⟩,
   ⟨inv_of (by decide +kernel), by decide +kernel, by decide +kernel, by decide +kernel⟩⟩

/-- States and operands that meet the hypotheses of `pmbus_reads`, clause by clause. -/
theorem test_pmbus_reads_applies :
    (BusReady w183.chip ∧ w183.chip.Inv ∧ w183.chip.onePage = true) ∧
    (BusReady w183.chip ∧ w183.chip.Inv ∧ w183.chip.up Domain.sup = true ∧ w183.chip.up Domain.nvm = true) ∧
    (BusReady w184.chip ∧ w184.chip.Inv ∧ w184.chip.twb0.page = 128 ∧ w184.chip.up Domain.afe = true) ∧
    (BusReady w184.chip ∧ w184.chip.Inv ∧ w184.chip.twb0.page = 128 ∧ w184.chip.up Domain.hub = true ∧ (0 : Int) ≤
      (w184.chip.loopSt 0).vmeas) ∧
    (BusReady w185.chip ∧ w185.chip.Inv ∧ w185.chip.onePage = false) ∧
    (BusReady w201.chip ∧ w201.chip.Inv) ∧
    (BusReady w218.chip ∧ w218.chip.Inv ∧ w218.chip.up Domain.aon = true ∧ w218.chip.twb0.winCnt = 1 ∧
      w218.chip.twb0.winCur = Reg.devid ∧ BitVec.toNat (w218.chip.reg Reg.winlo) ≤ Reg.devid ∧ Reg.devid ≤
      BitVec.toNat (w218.chip.reg Reg.winhi)) :=
  ⟨⟨by constructor <;> decide +kernel, inv_of (by decide +kernel), by decide +kernel⟩,
   ⟨by constructor <;> decide +kernel, inv_of (by decide +kernel), by decide +kernel, by decide +kernel⟩,
   ⟨by constructor <;> decide +kernel, inv_of (by decide +kernel), by decide +kernel, by decide +kernel⟩,
   ⟨by constructor <;> decide +kernel, inv_of (by decide +kernel), by decide +kernel, by decide +kernel,
      by decide +kernel⟩,
   ⟨by constructor <;> decide +kernel, inv_of (by decide +kernel), by decide +kernel⟩,
   ⟨by constructor <;> decide +kernel, inv_of (by decide +kernel)⟩,
   ⟨by constructor <;> decide +kernel, inv_of (by decide +kernel), by decide +kernel, by decide +kernel,
      by decide +kernel, by decide +kernel, by decide +kernel⟩⟩

/-- States and operands that meet the hypotheses of `pmbus_writes`, clause by clause. -/
theorem test_pmbus_writes_applies :
    (BusReady w189.chip ∧ w189.chip.bit Reg.twbctl 1 = false ∧ w189.chip.twb0.wprot = 0 ∧ (pageKind (BitVec.toNat
      (129 : Byte))).isSome = true) ∧
    (BusReady w189.chip ∧ w189.chip.bit Reg.twbctl 1 = false ∧ w189.chip.twb0.wprot = 0 ∧ w189.chip.loopPage = true
      ∧ w189.chip.twb0.hcq.length < 8 ∧ [(1 : Byte), (2 : Byte)].length = (2 : Nat)) ∧
    (BusReady w189.chip ∧ w189.chip.bit Reg.twbctl 1 = false ∧ w189.chip.twb0.wprot = 0 ∧ [(1 : Byte), (2 :
      Byte)].length = (2 : Nat) ∧ w189.chip.up Domain.sup = true) ∧
    (BusReady w190.chip ∧ w190.chip.bit Reg.twbctl 1 = false ∧ ((32 : Byte) = (0 : Byte) ∨ (32 : Byte) = (32 : Byte)
      ∨ (32 : Byte) = (64 : Byte) ∨ (32 : Byte) = (128 : Byte))) ∧
    (BusReady w190.chip ∧ w190.chip.bit Reg.twbctl 1 = false ∧ w190.chip.twb0.wprot = 0 ∧ [(1 : Byte), (2 : Byte),
      (3 : Byte), (4 : Byte), (8 : Byte)].length = (5 : Nat) ∧ (1 : Nat) ≤ bytesVal (List.drop (4 : Nat) [(1 :
      Byte), (2 : Byte), (3 : Byte), (4 : Byte), (8 : Byte)]) ∧ bytesVal (List.drop (4 : Nat) [(1 : Byte), (2 :
      Byte), (3 : Byte), (4 : Byte), (8 : Byte)]) ≤ (8 : Nat)) ∧
    (BusReady w191.chip ∧ w191.chip.bit Reg.twbctl 1 = false ∧ w191.chip.twb0.wprot = 0 ∧ [(1 : Byte), (2 : Byte),
      (3 : Byte), (4 : Byte), (5 : Byte), (6 : Byte), (7 : Byte), (8 : Byte)].length = (8 : Nat) ∧ w191.chip.up
      Domain.sup = true ∧ w191.chip.upd.phase = 1 ∧ w191.chip.upd.owner = some false ∧ w191.chip.upd.rx.length <
      128) ∧
    (BusReady w191.chip ∧ w191.chip.bit Reg.twbctl 1 = false ∧ pageIndex w191.chip.twb0.page = some 0) ∧
    (BusReady w191.chip ∧ w191.chip.bit Reg.twbctl 1 = false ∧ (7 : Byte) ≠ pecOf [BitVec.ofNat 8 (2 *
      w191.chip.twbAddr), (0 : Byte), (128 : Byte)]) ∧
    (BusReady w192.chip ∧ w192.chip.bit Reg.twbctl 1 = false ∧ w192.chip.twb0.wprot = 0 ∧ 8 ≤
      w192.chip.twb0.hcq.length) ∧
    (BusReady w193.chip ∧ w193.chip.bit Reg.twbctl 1 = false ∧ w193.chip.twb0.wprot = 128) :=
  ⟨⟨by constructor <;> decide +kernel, by decide +kernel, by decide +kernel, by decide +kernel⟩,
   ⟨by constructor <;> decide +kernel, by decide +kernel, by decide +kernel, by decide +kernel, by decide +kernel,
      by decide +kernel⟩,
   ⟨by constructor <;> decide +kernel, by decide +kernel, by decide +kernel, by decide +kernel, by decide +kernel⟩,
   ⟨by constructor <;> decide +kernel, by decide +kernel, by decide +kernel⟩,
   ⟨by constructor <;> decide +kernel, by decide +kernel, by decide +kernel, by decide +kernel, by decide +kernel,
      by decide +kernel⟩,
   ⟨by constructor <;> decide +kernel, by decide +kernel, by decide +kernel, by decide +kernel, by decide +kernel,
      by decide +kernel, by decide +kernel, by decide +kernel⟩,
   ⟨by constructor <;> decide +kernel, by decide +kernel, by decide +kernel⟩,
   ⟨by constructor <;> decide +kernel, by decide +kernel, by decide +kernel⟩,
   ⟨by constructor <;> decide +kernel, by decide +kernel, by decide +kernel, by decide +kernel⟩,
   ⟨by constructor <;> decide +kernel, by decide +kernel, by decide +kernel⟩⟩

/-- States and operands that meet the hypotheses of `host_and_local_bus` (host bus), clause by clause. -/
theorem test_host_bus_applies :
    (w194.chip.Inv ∧ w194.chip.up Domain.ifc = true ∧ w194.chip.bit Reg.twbctl 2 = true ∧ w194.chip.alertDriven =
      false ∧ w194.chip.reqPending = false ∧ w194.chip.twb0.cBusy = false) ∧
    (w194.chip.Inv ∧ MayWrite w194 Master.window Reg.hcmdpop ∧ BitVec.getLsbD (1 : Word) (0 : Nat) = true) ∧
    (w194.chip.Inv ∧ MayWrite w194 Master.window Reg.notice ∧ BitVec.getLsbD (1 : Word) (0 : Nat) = true) ∧
    (w196.chip.Inv ∧ w196.chip.up Domain.ifc = true ∧ w196.chip.twb0.asleep = true) ∧
    (w202.chip.Inv ∧ BusReady w202.chip ∧ w202.chip.alertDriven = true) ∧
    (w202.chip.Inv ∧ BusReady w202.chip ∧ w202.chip.reqPending = true) ∧
    (w202.chip.Inv ∧ w202.chip.reqPending = true ∧ w202.chip.twb0.cBusy = false ∧ w202.chip.twb0.pulseAt = some 5)
      :=
  ⟨⟨inv_of (by decide +kernel), by decide +kernel, by decide +kernel, by decide +kernel, by decide +kernel,
      by decide +kernel⟩,
   ⟨inv_of (by decide +kernel), by decide +kernel, by decide +kernel⟩,
   ⟨inv_of (by decide +kernel), by decide +kernel, by decide +kernel⟩,
   ⟨inv_of (by decide +kernel), by decide +kernel, by decide +kernel⟩,
   ⟨inv_of (by decide +kernel), by constructor <;> decide +kernel, by decide +kernel⟩,
   ⟨inv_of (by decide +kernel), by constructor <;> decide +kernel, by decide +kernel⟩,
   ⟨inv_of (by decide +kernel), by decide +kernel, by decide +kernel, by decide +kernel⟩⟩

/-- States and operands that meet the hypotheses of `host_and_local_bus` (bus controllers), clause by clause. -/
theorem test_bus_controllers_applies :
    (w197.chip.Inv ∧ MayWrite w197 Master.window Reg.ctlctl ∧ BitVec.getLsbD (16777216 : Word) (24 : Nat) = true ∧
      w197.chip.twb0.cBusy = false ∧ w197.chip.twb0.cBack = none) ∧
    (w199.chip.Inv ∧ w199.chip.up Domain.ifc = true ∧ w199.chip.twb0.cBusy = true ∧ w199.chip.twb0.cBack = none) ∧
    (w199.chip.Inv ∧ MayWrite w199 Master.window Reg.lxfer ∧ w199.chip.twb1.busy = false ∧ BitVec.getLsbD (17829888
      : Word) (24 : Nat) = true ∧ w199.chip.bit Reg.lctl 0 = true ∧ (1 : Nat) ≤ fld (17829888 : Word) (8 : Nat) (5 :
      Nat) ∧ fld (17829888 : Word) (8 : Nat) (5 : Nat) ≤ (16 : Nat) ∧ fld (17829888 : Word) (16 : Nat) (5 : Nat) ≤
      (16 : Nat)) ∧
    (w200.chip.Inv ∧ w200.chip.up Domain.ifc = true ∧ w200.chip.twb1.busy = true) ∧
    (w198.chip.Inv ∧ w198.chip.up Domain.ifc = true ∧ w198.chip.twb0.cBusy = true ∧ w198.chip.twb0.cBack = some 600
      ∧ Attempt.runs = Attempt.runs) :=
  ⟨⟨inv_of (by decide +kernel), by decide +kernel, by decide +kernel, by decide +kernel, by decide +kernel⟩,
   ⟨inv_of (by decide +kernel), by decide +kernel, by decide +kernel, by decide +kernel⟩,
   ⟨inv_of (by decide +kernel), by decide +kernel, by decide +kernel, by decide +kernel, by decide +kernel,
      by decide +kernel, by decide +kernel, by decide +kernel⟩,
   ⟨inv_of (by decide +kernel), by decide +kernel, by decide +kernel⟩,
   ⟨inv_of (by decide +kernel), by decide +kernel, by decide +kernel, by decide +kernel, by decide +kernel⟩⟩

/-- States and operands that meet the hypotheses of `updates` (update commands), clause by clause. -/
theorem test_update_commands_applies :
    (w204.chip.Inv ∧ MayWrite w204 Master.window Reg.updcmd ∧ w204.chip.upd.phase = 0 ∧ w204.chip.upd.owner = none ∧
      w204.chip.updGuard true = none) ∧
    (w204.chip.Inv ∧ MayWrite w204 Master.window Reg.updcmd ∧ fld (0 : Word) (16 : Nat) (16 : Nat) ≠ (24186 : Nat))
      ∧
    (w205.chip.Inv ∧ MayWrite w205 Master.window Reg.updcmd ∧ w205.chip.upd.phase ≠ 0 ∧ w205.chip.upd.owner ≠ some
      false) ∧
    (w205.chip.Inv ∧ MayWrite w205 Master.window Reg.updcmd ∧ w205.chip.upd.phase = 6 ∧ w205.chip.upd.owner ≠ some
      false ∧ w205.chip.updGuard false = none ∧ w205.chip.pwr.cur = ShelfState.standby ∧ w205.chip.planD = false) ∧
    (w205.chip.Inv ∧ MayWrite w205 Master.window Reg.updcmd ∧ w205.chip.upd.trial = true) ∧
    (w206.chip.Inv ∧ MayWrite w206 Master.window Reg.updcmd ∧ w206.chip.upd.phase = 2 ∧ BitVec.toNat (w206.chip.reg
      Reg.updplim) ≥ w206.chip.gate.psh.natAbs ∧ w206.chip.up Domain.hub = true) :=
  ⟨⟨inv_of (by decide +kernel), by decide +kernel, by decide +kernel, by decide +kernel, by decide +kernel⟩,
   ⟨inv_of (by decide +kernel), by decide +kernel, by decide +kernel⟩,
   ⟨inv_of (by decide +kernel), by decide +kernel, by decide +kernel, by decide +kernel⟩,
   ⟨inv_of (by decide +kernel), by decide +kernel, by decide +kernel, by decide +kernel, by decide +kernel,
      by decide +kernel, by decide +kernel⟩,
   ⟨inv_of (by decide +kernel), by decide +kernel, by decide +kernel⟩,
   ⟨inv_of (by decide +kernel), by decide +kernel, by decide +kernel, by decide +kernel, by decide +kernel⟩⟩

/-- States and operands that meet the hypotheses of `updates` (update course), clause by clause. -/
theorem test_update_course_applies :
    (w207.chip.Inv ∧ w207.chip.up Domain.sup = true ∧ MayWrite w207 Master.window Reg.upddata ∧ w207.chip.upd.phase
      = 1 ∧ w207.chip.upd.owner = some true ∧ w207.chip.upd.rx.length < 128) ∧
    (w207.chip.Inv ∧ w207.chip.up Domain.sup = true ∧ w207.chip.upd.stale = false) ∧
    (w208.chip.Inv ∧ w208.chip.up Domain.sup = true ∧ MayWrite w208 Master.window Reg.upddata ∧ w208.chip.updBusy =
      true) ∧
    (w208.chip.Inv ∧ w208.chip.up Domain.sup = true ∧ w208.chip.upd.phase = 1 ∧ 128 ≤ w208.chip.upd.rx.length ∧
      w208.chip.headerRefusal (List.take 128 w208.chip.upd.rx) = some 5) ∧
    (w209.chip.Inv ∧ w209.chip.up Domain.sup = true ∧ w209.chip.upd.phase = 1 ∧ 128 ≤ w209.chip.upd.rx.length ∧
      w209.chip.headerRefusal (List.take 128 w209.chip.upd.rx) = none) ∧
    (w210.chip.Inv ∧ w210.chip.up Domain.sup = true ∧ w210.chip.upd.phase = 3 ∧ w210.chip.upd.rx.length = 128 ∧
      w210.chip.upd.got = 128 ∧ w210.chip.upd.base % 4096 = 0 ∧ 1 ≤ w210.chip.upd.len ∧ w210.chip.upd.base +
      w210.chip.upd.len + 128 ≤ 983040 ∧ (127 : Nat) < (128 : Nat)) ∧
    (w210.chip.Inv ∧ w210.chip.up Domain.sup = true ∧ w210.chip.upd.phase = 3 ∧ w210.chip.upd.rx.length = 128 ∧
      w210.chip.upd.got = 128 ∧ w210.chip.upd.base % 4096 = 0 ∧ 1 ≤ w210.chip.upd.len ∧ w210.chip.upd.base +
      w210.chip.upd.len + 128 ≤ 983040 ∧ 127 < w210.chip.upd.len) ∧
    (w212.chip.Inv ∧ w212.chip.up Domain.sup = true ∧ w212.chip.upd.phase = 5 ∧ field (w212.chip.flashBytes
      w212.chip.upd.base 128) 28 4 = BitVec.toNat (check (w212.chip.flashBytes (w212.chip.upd.base + 128)
      w212.chip.upd.len)) ∧ w212.chip.keyFused = false) ∧
    (w212.chip.Inv ∧ w212.chip.up Domain.sup = true ∧ w212.chip.upd.timeAt = some 7) ∧
    (w212.chip.Inv ∧ w212.chip.up Domain.sup = true ∧ w212.chip.upd.trial = true) ∧
    (w213.chip.Inv ∧ w213.chip.up Domain.sup = true ∧ w213.chip.upd.phase = 5 ∧ field (w213.chip.flashBytes
      w213.chip.upd.base 128) 28 4 ≠ BitVec.toNat (check (w213.chip.flashBytes (w213.chip.upd.base + 128)
      w213.chip.upd.len))) :=
  ⟨⟨inv_of (by decide +kernel), by decide +kernel, by decide +kernel, by decide +kernel, by decide +kernel,
      by decide +kernel⟩,
   ⟨inv_of (by decide +kernel), by decide +kernel, by decide +kernel⟩,
   ⟨inv_of (by decide +kernel), by decide +kernel, by decide +kernel, by decide +kernel⟩,
   ⟨inv_of (by decide +kernel), by decide +kernel, by decide +kernel, by decide +kernel, by decide +kernel⟩,
   ⟨inv_of (by decide +kernel), by decide +kernel, by decide +kernel, by decide +kernel, by decide +kernel⟩,
   ⟨inv_of (by decide +kernel), by decide +kernel, by decide +kernel, by decide +kernel, by decide +kernel,
      by decide +kernel, by decide +kernel, by decide +kernel, by decide +kernel⟩,
   ⟨inv_of (by decide +kernel), by decide +kernel, by decide +kernel, by decide +kernel, by decide +kernel,
      by decide +kernel, by decide +kernel, by decide +kernel, by decide +kernel⟩,
   ⟨inv_of (by decide +kernel), by decide +kernel, by decide +kernel, by decide +kernel, by decide +kernel⟩,
   ⟨inv_of (by decide +kernel), by decide +kernel, by decide +kernel⟩,
   ⟨inv_of (by decide +kernel), by decide +kernel, by decide +kernel⟩,
   ⟨inv_of (by decide +kernel), by decide +kernel, by decide +kernel, by decide +kernel⟩⟩

/-- States and operands that meet the hypotheses of `fuse_programming`, clause by clause. -/
theorem test_fuse_programming_applies :
    (w214.chip.Inv ∧ MayWrite w214 Master.window Reg.fcmd ∧ fld (4032692225 : Word) (16 : Nat) (16 : Nat) = (61534 :
      Nat) ∧ BitVec.getLsbD (4032692225 : Word) (0 : Nat) = true ∧ (w214.chip.pwr.cur = ShelfState.standby ∨
      w214.chip.pwr.cur = ShelfState.recovery) ∧ w214.chip.gate.gst = Gst.open_ ∧ 3000 ≤ w214.chip.pwr.vinMv ∧
      w214.chip.fuses.locked = false ∧ 4 ≤ w214.chip.rf Reg.faddr 0 7 ∧ w214.chip.fuses.busy = none) ∧
    (w216.chip.Inv ∧ MayWrite w216 Master.window Reg.fcmd ∧ fld (4032692225 : Word) (16 : Nat) (16 : Nat) = (61534 :
      Nat) ∧ BitVec.getLsbD (4032692225 : Word) (0 : Nat) = true ∧ (w216.chip.fuses.locked = true ∨
      w216.chip.gate.gst ≠ Gst.open_ ∨ w216.chip.pwr.vinMv < 3000 ∨ w216.chip.rf Reg.faddr 0 7 < 4 ∨
      w216.chip.pwr.cur ≠ ShelfState.standby ∧ w216.chip.pwr.cur ≠ ShelfState.recovery)) ∧
    (w217.chip.Inv ∧ w217.chip.fuses.busy = some (127, (240 : Word)) ∧ (127 : Nat) < (128 : Nat) ∧
      w217.chip.fuses.array.length = 128 ∧ (4 : Nat) < (32 : Nat)) ∧
    (w217.chip.Inv ∧ w217.chip.fuses.busy = some (127, (240 : Word)) ∧ (127 : Nat) < (128 : Nat) ∧
      w217.chip.fuses.array.length = 128 ∧ (126 : Nat) ≠ (127 : Nat)) ∧
    (w217.chip.Inv ∧ w217.chip.fuses.busy = some (127, (240 : Word)) ∧ (127 : Nat) < (128 : Nat) ∧
      w217.chip.fuses.array.length = 128 ∧ (0 : Word) = (0 : Word)) :=
  ⟨⟨inv_of (by decide +kernel), by decide +kernel, by decide +kernel, by decide +kernel, by decide +kernel,
      by decide +kernel, by decide +kernel, by decide +kernel, by decide +kernel, by decide +kernel⟩,
   ⟨inv_of (by decide +kernel), by decide +kernel, by decide +kernel, by decide +kernel, by decide +kernel⟩,
   ⟨inv_of (by decide +kernel), by decide +kernel, by decide +kernel, by decide +kernel, by decide +kernel⟩,
   ⟨inv_of (by decide +kernel), by decide +kernel, by decide +kernel, by decide +kernel, by decide +kernel⟩,
   ⟨inv_of (by decide +kernel), by decide +kernel, by decide +kernel, by decide +kernel, by decide +kernel⟩⟩

/-! Witnesses whose evaluation needs a lemma on the way: flash images, the empty record ring, vectors. -/

/-- The header of a loader image whose body is the bytes 1 to 8 (R543, Table 18.3). -/
def loaderHead : Nat := 0x2DEE79EF0000000000000000000000000000000000000000000000000000000046891F810000008000000080000000080001000000000000128000014E414F5A

/-- The header of an application image in slot 0 with the same body. -/
def appHead : Nat := 0x508533F00000000000000000000000000000000000000000000000000000000046891F810001008000010080000000080000000000000000128000014E414F5A

/-- Cells of an image: header and body. -/
def imageAt (base head : Nat) : List Host.Cell :=
  cellsAt base (natBytes 64 head) 0xFF ++ cellsAt (base + 0x80) (natBytes 8 0x0807060504030201) 0xFF

/-- A part whose flash holds a loader and an application. -/
def imaged (b : BootPhase) : State :=
  st { upChip with pwr.boot := b, mem := imageAt 0 loaderHead ++ imageAt 0x10000 appHead }

theorem loader_words (b : BootPhase) :
    (imaged b).chip.flashRead 0x0 = some (0x128000014E414F5A, false) ∧
    (imaged b).chip.flashRead 0x8 = some (0x1000000000000, false) ∧
    (imaged b).chip.flashRead 0x10 = some (0x8000000008, false) ∧
    (imaged b).chip.flashRead 0x18 = some (0x46891F8100000080, false) ∧
    (imaged b).chip.flashRead 0x20 = some (0x0, false) ∧
    (imaged b).chip.flashRead 0x28 = some (0x0, false) ∧
    (imaged b).chip.flashRead 0x30 = some (0x0, false) ∧
    (imaged b).chip.flashRead 0x38 = some (0x2DEE79EF00000000, false) ∧
    (imaged b).chip.flashRead 0x80 = some (0x807060504030201, false) :=
  ⟨flashRead_stored _ _ _ rfl ((flashData_congr _ (imaged .off).chip _ rfl).trans (by decide +kernel)) (by decide +kernel),
   flashRead_stored _ _ _ rfl ((flashData_congr _ (imaged .off).chip _ rfl).trans (by decide +kernel)) (by decide +kernel),
   flashRead_stored _ _ _ rfl ((flashData_congr _ (imaged .off).chip _ rfl).trans (by decide +kernel)) (by decide +kernel),
   flashRead_stored _ _ _ rfl ((flashData_congr _ (imaged .off).chip _ rfl).trans (by decide +kernel)) (by decide +kernel),
   flashRead_stored _ _ _ rfl ((flashData_congr _ (imaged .off).chip _ rfl).trans (by decide +kernel)) (by decide +kernel),
   flashRead_stored _ _ _ rfl ((flashData_congr _ (imaged .off).chip _ rfl).trans (by decide +kernel)) (by decide +kernel),
   flashRead_stored _ _ _ rfl ((flashData_congr _ (imaged .off).chip _ rfl).trans (by decide +kernel)) (by decide +kernel),
   flashRead_stored _ _ _ rfl ((flashData_congr _ (imaged .off).chip _ rfl).trans (by decide +kernel)) (by decide +kernel),
   flashRead_stored _ _ _ rfl ((flashData_congr _ (imaged .off).chip _ rfl).trans (by decide +kernel)) (by decide +kernel)⟩

theorem loader_head (b : BootPhase) : (imaged b).chip.flashBytes 0x0 64 = natBytes 64 loaderHead := by
  obtain ⟨h0, h1, h2, h3, h4, h5, h6, h7, -⟩ := loader_words b
  rw [show 64 = 8 + (8 + (8 + (8 + (8 + (8 + (8 + 8)))))) from rfl]
  iterate 7 rw [flashBytes_add]
  simp only [Nat.reduceAdd, flashBytes_word _ _ _ _ (by decide) h0, flashBytes_word _ _ _ _ (by decide) h1, flashBytes_word _ _ _ _ (by decide) h2, flashBytes_word _ _ _ _ (by decide) h3, flashBytes_word _ _ _ _ (by decide) h4, flashBytes_word _ _ _ _ (by decide) h5, flashBytes_word _ _ _ _ (by decide) h6, flashBytes_word _ _ _ _ (by decide) h7]
  decide +kernel

theorem loader_image (b : BootPhase) : (imaged b).chip.imageOk 0x0 0x10000 1 false = true := by
  have hb : field (natBytes 64 loaderHead) 0x10 4 = 8 := by decide +kernel
  obtain ⟨-, -, -, -, -, -, -, -, h8⟩ := loader_words b
  simp only [Chip.imageOk, Chip.headerOk, loader_head, hb, Nat.reduceAdd, flashBytes_word _ _ _ _ (by decide) h8]
  decide +kernel

theorem app_words (b : BootPhase) :
    (imaged b).chip.flashRead 0x10000 = some (0x128000014E414F5A, false) ∧
    (imaged b).chip.flashRead 0x10008 = some (0x0, false) ∧
    (imaged b).chip.flashRead 0x10010 = some (0x1008000000008, false) ∧
    (imaged b).chip.flashRead 0x10018 = some (0x46891F8100010080, false) ∧
    (imaged b).chip.flashRead 0x10020 = some (0x0, false) ∧
    (imaged b).chip.flashRead 0x10028 = some (0x0, false) ∧
    (imaged b).chip.flashRead 0x10030 = some (0x0, false) ∧
    (imaged b).chip.flashRead 0x10038 = some (0x508533F000000000, false) ∧
    (imaged b).chip.flashRead 0x10080 = some (0x807060504030201, false) :=
  ⟨flashRead_stored _ _ _ rfl ((flashData_congr _ (imaged .off).chip _ rfl).trans (by decide +kernel)) (by decide +kernel),
   flashRead_stored _ _ _ rfl ((flashData_congr _ (imaged .off).chip _ rfl).trans (by decide +kernel)) (by decide +kernel),
   flashRead_stored _ _ _ rfl ((flashData_congr _ (imaged .off).chip _ rfl).trans (by decide +kernel)) (by decide +kernel),
   flashRead_stored _ _ _ rfl ((flashData_congr _ (imaged .off).chip _ rfl).trans (by decide +kernel)) (by decide +kernel),
   flashRead_stored _ _ _ rfl ((flashData_congr _ (imaged .off).chip _ rfl).trans (by decide +kernel)) (by decide +kernel),
   flashRead_stored _ _ _ rfl ((flashData_congr _ (imaged .off).chip _ rfl).trans (by decide +kernel)) (by decide +kernel),
   flashRead_stored _ _ _ rfl ((flashData_congr _ (imaged .off).chip _ rfl).trans (by decide +kernel)) (by decide +kernel),
   flashRead_stored _ _ _ rfl ((flashData_congr _ (imaged .off).chip _ rfl).trans (by decide +kernel)) (by decide +kernel),
   flashRead_stored _ _ _ rfl ((flashData_congr _ (imaged .off).chip _ rfl).trans (by decide +kernel)) (by decide +kernel)⟩

theorem app_head (b : BootPhase) : (imaged b).chip.flashBytes 0x10000 64 = natBytes 64 appHead := by
  obtain ⟨h0, h1, h2, h3, h4, h5, h6, h7, -⟩ := app_words b
  rw [show 64 = 8 + (8 + (8 + (8 + (8 + (8 + (8 + 8)))))) from rfl]
  iterate 7 rw [flashBytes_add]
  simp only [Nat.reduceAdd, flashBytes_word _ _ _ _ (by decide) h0, flashBytes_word _ _ _ _ (by decide) h1, flashBytes_word _ _ _ _ (by decide) h2, flashBytes_word _ _ _ _ (by decide) h3, flashBytes_word _ _ _ _ (by decide) h4, flashBytes_word _ _ _ _ (by decide) h5, flashBytes_word _ _ _ _ (by decide) h6, flashBytes_word _ _ _ _ (by decide) h7]
  decide +kernel

theorem app_image (b : BootPhase) : (imaged b).chip.imageOk 0x10000 0xE0000 0 false = true := by
  have hb : field (natBytes 64 appHead) 0x10 4 = 8 := by decide +kernel
  obtain ⟨-, -, -, -, -, -, -, -, h8⟩ := app_words b
  simp only [Chip.imageOk, Chip.headerOk, app_head, hb, Nat.reduceAdd, flashBytes_word _ _ _ _ (by decide) h8]
  decide +kernel

/-- An image that passes also passes the check of headers only. -/
theorem headers_only {c : Chip} {b n k : Nat} (h : c.imageOk b n k false = true) : c.imageOk b n k true = true := by
  simp only [Chip.imageOk, Bool.and_eq_true, Bool.true_or, and_true] at h ⊢
  exact h.1

/-- States that meet the hypotheses of `boot_stages_and_loader`: the boot ROM's check passes and fails, the loader finds an
application and finds none, and a warm restart. -/
theorem test_boot_and_loader_applies :
    ((imaged .bootRom).chip.pwr.boot = .bootRom ∧ (imaged .bootRom).chip.imageOk 0 0x10000 1 false = true) ∧
    ((bp .bootRom id).chip.pwr.boot = .bootRom ∧ (bp .bootRom id).chip.imageOk 0 0x10000 1 false = false ∧
      (bp .bootRom id).chip.pwr.cur = .standby) ∧
    ((imaged .loader).chip.Inv ∧ (imaged .loader).chip.planD = false ∧ (imaged .loader).chip.bootNewest = none ∧
      (imaged .loader).chip.pwr.boot = .loader ∧ (imaged .loader).chip.imageOk 0x10000 0xE0000 0 false = true) ∧
    ((bp .loader id).chip.Inv ∧ (bp .loader id).chip.planD = false ∧ (bp .loader id).chip.bootNewest = none ∧
      (bp .loader id).chip.pwr.boot = .loader ∧ (bp .loader id).chip.imageOk 0x10000 0xE0000 0 false = false ∧
      (bp .loader id).chip.pwr.cur = .standby) ∧
    ((imaged .warmRestart).chip.Inv ∧ (imaged .warmRestart).chip.planD = false ∧
      (imaged .warmRestart).chip.bootNewest = none ∧ (imaged .warmRestart).chip.pwr.boot = .warmRestart ∧
      (imaged .warmRestart).chip.booted = true ∧ (imaged .warmRestart).chip.imageOk 0 0x10000 1 true = true ∧
      (imaged .warmRestart).chip.imageOk 0x10000 0xE0000 0 true = true) :=
  ⟨⟨rfl, loader_image _⟩,
   ⟨by decide +kernel, by decide +kernel, by decide +kernel⟩,
   ⟨inv_of (by decide +kernel), by decide +kernel, bootNewest_none _ rfl (by decide +kernel), rfl, app_image _⟩,
   ⟨inv_of (by decide +kernel), by decide +kernel, bootNewest_none _ rfl (by decide +kernel), by decide +kernel,
    by decide +kernel, by decide +kernel⟩,
   ⟨inv_of (by decide +kernel), by decide +kernel, bootNewest_none _ rfl (by decide +kernel), rfl, by decide +kernel,
    headers_only (loader_image _), headers_only (app_image _)⟩⟩

/-- A recorder that finds an empty ring meets the first clause of `recorder`'s start. -/
theorem test_recorder_start_applies : (re fun r => { r with ready := false }).chip.up .nvm = true ∧
    (re fun r => { r with ready := false }).chip.recd.ready = false ∧
    (re fun r => { r with ready := false }).chip.newestPos = none :=
  ⟨by decide +kernel, by decide +kernel, newestPos_none _ (by decide +kernel) (by decide +kernel)⟩

/-- A tile, an address and a size that meet the hypotheses of the vector loads and stores of
`vector_masks_reductions_and_memory`: sixteen half-words in loop RAM. -/
theorem test_vector_memory_applies :
    (tm id).chip.Inv ∧ ((tm id).chip.tile 1).v.length = 8 ∧ (∀ l ∈ ((tm id).chip.tile 1).v, l.length = 128) ∧
    TileReady (tm id).chip 1 2 .always ∧ Size.half.bytes ≤ 2 ^ 1 ∧
    (∀ j, acts ((tm id).chip.tile 1) false j = true →
      OwnOk (tm id).chip 1 ⟨1, true, 0⟩ (j * 2 ^ 1) 2 ∧
      loopRam 1 + 0x800 ≤ (tm id).chip.loopAddr 1 ⟨1, true, 0⟩ (j * 2 ^ 1) ∧
      (tm id).chip.loopAddr 1 ⟨1, true, 0⟩ (j * 2 ^ 1) < loopRam 1 + 0xC00) := by
  refine ⟨inv_of (by decide +kernel), by decide +kernel, by decide +kernel, by constructor <;> decide +kernel, by decide,
    fun j h => ?_⟩
  have hj : j < 16 := by
    simp only [acts, Bool.and_eq_true, decide_eq_true_eq] at h
    exact h.1.2.1
  have ha : ∀ j, j < 16 → (tm id).chip.loopAddr 1 ⟨1, true, 0⟩ (j * 2 ^ 1) % 2 = 0 ∧
      (tm id).chip.loopAddr 1 ⟨1, true, 0⟩ (j * 2 ^ 1) < loopRam 1 + mirrorOff ∧
      (tm id).chip.parityBad ((tm id).chip.loopAddr 1 ⟨1, true, 0⟩ (j * 2 ^ 1)) 2 = false ∧
      loopRam 1 + 0x800 ≤ (tm id).chip.loopAddr 1 ⟨1, true, 0⟩ (j * 2 ^ 1) ∧
      (tm id).chip.loopAddr 1 ⟨1, true, 0⟩ (j * 2 ^ 1) < loopRam 1 + 0xC00 := by decide +kernel
  obtain ⟨h1, h2, h3, h4, h5⟩ := ha j hj
  exact ⟨⟨rfl, h1, .inl h2, h3, by decide +kernel⟩, h4, h5⟩

end Sys2Proof.Tests
end

section
/-! SUPPORT. Register accesses: what a granted read and a granted write of a word do, for every command that is one
(R8, R10, R30). -/

namespace Sys2Proof.Machine

open Sys2Proof.Claims

/-- A command that is a write of a word, where the bus grants it: the write's effect and the answer `done`. -/
theorem does_write {s : State} {m : Master} {a : Nat} {v : Word} {i : Instr} {c : Chip}
    (hi : exec i s = s.run fun c => c.command1 m a v) (h : MayWrite s m a) (hw : s.chip.regWrite a v = c) :
    Does s i (ok c) := by
  rw [Does, hi, run_command1 _ _ _ h, hw, ok]

/-- A command that is a read of a register, where the bus grants it: the read's effect, and the value before it. -/
theorem does_read {s : State} {m : Master} {a : Nat} {i : Instr} {c : Chip}
    (hi : exec i s = s.run fun c => c.accessRead m a 4) (h : s.chip.regGrant m a 4 true = true)
    (he : s.chip.readEffect m a = c) : Does s i (val c (s.chip.regRead m a)) := by
  rw [Does, hi, State.run, accessRead_granted _ _ _ h, he, val]

/-- Reading a listed register returns its bits of code RC to their reset value (R8). -/
theorem readClear_of_row {a : Nat} {r : RegRow} (c : Chip) (h : regRow a = some r) :
    c.readClear a = if r.rc = 0 then c else c.setReg a (regReset a) := by
  rw [Chip.readClear, h]

/-- A read that latches no high half and moves no view and no snapshot offset clears what it clears, and nothing
else. -/
theorem readEffect_eq_readClear {c : Chip} {a : Nat} (m : Master) (hw0 : a ≠ Reg.win0 7) (hw1 : a ≠ Reg.win1 7)
    (hs : a ≠ Reg.snapdata) (hh : c.highHalf a = none) : c.readEffect m a = c.readClear a := by
  rw [Chip.readEffect, hh, if_neg hw0, if_neg hw1, if_neg hs]

/-! Plain writes (R8, R9). -/

/-- A write to a reserved offset stores nothing (R565). -/
theorem plainWrite_reserved {a : Nat} (c : Chip) (v : Word) (h : regRow a = none) : c.plainWrite a v = c := by
  rw [Chip.plainWrite, h]

/-- A plain write stores in its own register what its row's masks let through. -/
theorem plainWrite_of_row {a : Nat} {r : RegRow} (c : Chip) (v : Word) (h : regRow a = some r) :
    c.plainWrite a v = c.setReg a (r.written (r.lockAt ≠ 0 && c.bit r.lockAt 0) (c.reg a) v) := by
  rw [Chip.plainWrite, h]

/-- Bit `k` of what a plain write leaves in a register, by the access code of the bit. -/
theorem getLsbD_written (r : RegRow) (locked : Bool) (old v : Word) {k : Nat} (hk : k < 32) :
    (r.written locked old v).getLsbD k =
      if r.w1c.getLsbD k && v.getLsbD k then false
      else if r.rw.getLsbD k || (r.lk.getLsbD k && !locked) then v.getLsbD k
      else old.getLsbD k := by
  have htake : (if locked then r.rw else r.rw ||| r.lk).getLsbD k =
      (r.rw.getLsbD k || (r.lk.getLsbD k && !locked)) := by
    cases locked <;> simp
  rw [← htake, RegRow.written]
  generalize (if locked then r.rw else r.rw ||| r.lk) = take
  simp only [BitVec.getLsbD_and, BitVec.getLsbD_or, BitVec.getLsbD_not, hk, decide_true, Bool.true_and]
  cases r.w1c.getLsbD k && v.getLsbD k with
  | true => simp
  | false => cases take.getLsbD k <;> simp

/-! Shadows (R30, R31). -/

/-- Masters have codes of their own. -/
theorem masterCode_injective : Function.Injective masterCode := by
  intro m m' h
  cases m <;> cases m' <;> simp [masterCode] at h ⊢ <;> omega

/-- The shadows of one high half belong to one master each. -/
theorem shadowKey_right_inj {m m' : Master} {hi : Nat} : shadowKey m hi = shadowKey m' hi ↔ m = m' := by
  refine ⟨fun h => masterCode_injective ?_, fun h => h ▸ rfl⟩
  simp only [shadowKey] at h
  omega

/-- A latched shadow reads back for the master it was latched for. -/
theorem shadow_latch_same {c : Chip} (h : c.Inv) (m : Master) (a : Nat) (v : Word) :
    (c.latch m a v).shadow m a = v := by
  rw [shadow_latch h.shadows, if_pos rfl]

/-- Latching a shadow for one master leaves every other master's shadow of that high half. -/
theorem shadow_latch_ne {c : Chip} (h : c.Inv) {m m' : Master} (hm : m' ≠ m) (a : Nat) (v : Word) :
    (c.latch m a v).shadow m' a = c.shadow m' a := by
  rw [shadow_latch h.shadows, if_neg (mt shadowKey_right_inj.mp hm)]

/-- A read of TICKLO latches the counter's high word for the master that reads, and does no more. -/
theorem readEffect_ticklo (c : Chip) (m : Master) :
    c.readEffect m Reg.ticklo = c.latch m Reg.tickhi (word (c.tg.tick / 2 ^ 32)) := rfl

/-- TICKLO reads the counter's low word. -/
theorem regRead_ticklo (c : Chip) (m : Master) : c.regRead m Reg.ticklo = word c.tg.tick := rfl

/-- TICKHI reads the reading master's shadow. -/
theorem readTgrid_tickhi (c : Chip) (m : Master) : readTgrid c m Reg.tickhi = c.shadow m Reg.tickhi := rfl

/-! Locks (R9, R52). -/

/-- A write of a lock register sets the lock where bit 0 is written 1, and does nothing where it is written 0. -/
theorem regWrite_lockAddr (c : Chip) (r : LockReg) (v : Word) :
    c.regWrite (lockAddr r) v =
      if v.getLsbD 0 then (if r = .flock then { c with fuses.locked := true } else c.setReg (lockAddr r) 1) else c := by
  cases r <;> rfl

/-- While TGLOCK is set, a write of TGCTL does nothing. -/
theorem regWrite_tgctl_locked {c : Chip} (h : c.bit Reg.tglock 0 = true) (v : Word) : c.regWrite Reg.tgctl v = c := by
  show c.writeTgctl v = c
  rw [Chip.writeTgctl, if_pos h]

/-- While TGLOCK is set, a write of PPSWIN does nothing. -/
theorem regWrite_ppswin_locked {c : Chip} (h : c.bit Reg.tglock 0 = true) (v : Word) : c.regWrite Reg.ppswin v = c :=
  if_pos h

/-- While SYSLOCK is set, a write of WDTCTL does nothing. -/
theorem regWrite_wdtctl_locked {c : Chip} (h : c.bit Reg.syslock 0 = true) (v : Word) : c.regWrite Reg.wdtctl v = c :=
  if_pos h

/-! The CRC block (R13, R16, R17). -/

/-- CRCCTL written with INIT sets the state to ones. -/
theorem regWrite_crcctl (c : Chip) {v : Word} (h : v.getLsbD 0 = true) :
    c.regWrite Reg.crcctl v = { c with crc := 0xFFFFFFFF } := if_pos h

/-- CRCDATA shifts in the four bytes of the word written. -/
theorem regWrite_crcdata (c : Chip) (v : Word) :
    c.regWrite Reg.crcdata v = { c with crc := crcBytes c.crc (wordBytes v) } := rfl

/-- CRCBYTE shifts in the low byte of the word written. -/
theorem regWrite_crcbyte (c : Chip) (v : Word) :
    c.regWrite Reg.crcbyte v = { c with crc := crcByteStep c.crc (v.truncate 8) } := rfl

/-- CRCSTATE loads the state. -/
theorem regWrite_crcstate (c : Chip) (v : Word) : c.regWrite Reg.crcstate v = { c with crc := v } := rfl

/-- The bytes of a word are its fields of eight bits, the low one first (R11). -/
theorem wordBytes_eq_map_extractLsb' (v : Word) : wordBytes v = [0, 8, 16, 24].map fun i => v.extractLsb' i 8 := by
  simp [wordBytes, natBytes, BitVec.toNat_eq, Nat.shiftRight_eq_div_pow, Nat.div_div_eq_div_mul]

/-- CRCRES reads the state inverted. -/
theorem readCrc_crcres (c : Chip) : readCrc c Reg.crcres = ~~~c.crc := BitVec.xor_allOnes

end Sys2Proof.Machine
end

section
/-! CERTIFICATE. The statements of chapter 0: reads with effects, plain writes and locks, the CRC block. -/

namespace Sys2Proof.Certificates

open Sys2Proof.Machine Sys2Proof.Claims

/-- Settles O9: a granted read is its value and its effect, and a shadow's key tells the masters apart. -/
theorem readsWithEffects : Obligations.reads_with_effects := by
  unfold Obligations.reads_with_effects
  refine ⟨fun s m a r _ hg hw0 hw1 hs hh hr => does_read rfl hg ?_, fun s m hinv hg => ⟨?_, ?_, fun m' hm => ?_⟩⟩
  · rw [readEffect_eq_readClear m hw0 hw1 hs hh, readClear_of_row _ hr]
  · have hdoes := does_read (i := .lowHalfRead m Reg.ticklo) rfl hg (readEffect_ticklo s.chip m)
    rwa [regRead_ticklo] at hdoes
  · rw [readTgrid_tickhi, shadow_latch_same hinv]
  · exact shadow_latch_ne hinv hm _ _

/-- Settles O11: the masks of a register's row decide each bit of a plain write, and a locked register's write is the
identity. -/
theorem plainWritesAndLocks : Obligations.plain_writes_and_locks := by
  unfold Obligations.plain_writes_and_locks
  refine ⟨fun c a v hinv => ⟨plainWrite_reserved c v, fun r hr => ⟨fun b hb => ?_, fun k hk => ?_⟩⟩,
    fun s m r v hg => ⟨fun hv => ?_, fun hv => ?_⟩, fun s m v => ⟨fun hl hg => ?_, fun hl hg => ?_, fun hl hg => ?_⟩⟩
  · rw [plainWrite_of_row c v hr, reg_setReg hinv.regs, if_neg hb]
  · rw [plainWrite_of_row c v hr, Chip.bit, reg_setReg hinv.regs, if_pos rfl, getLsbD_written _ _ _ _ hk]
    rfl
  · exact does_write rfl hg (by rw [regWrite_lockAddr, if_neg (Bool.eq_false_iff.mp hv)])
  · exact does_write rfl hg (by rw [regWrite_lockAddr, if_pos hv])
  · exact does_write rfl hg (regWrite_tgctl_locked hl v)
  · exact does_write rfl hg (regWrite_ppswin_locked hl v)
  · exact does_write rfl hg (regWrite_wdtctl_locked hl v)

/-- Settles O10: each register of the block by its own write, and R13's example by evaluating the check. -/
theorem crcBlock : Obligations.crc_block := by
  unfold Obligations.crc_block
  refine ⟨fun s m v => ⟨fun hg hv => ?_, fun hg => ?_, fun hg => ?_, fun hg => ?_, readCrc_crcres _⟩, by decide +kernel⟩
  · exact does_write rfl hg (regWrite_crcctl _ hv)
  · refine does_write rfl hg ?_
    rw [regWrite_crcdata, crcBytes, wordBytes_eq_map_extractLsb', List.foldl_map]
  · refine does_write rfl hg ?_
    rw [regWrite_crcbyte, BitVec.truncate_eq_setWidth, BitVec.setWidth_eq_extractLsb' (by decide)]
  · exact does_write rfl hg (regWrite_crcstate _ v)

end Sys2Proof.Certificates
end

section
/-! SUPPORT. The chains and the hub's frames: what each arrival does where the hub runs its chain, the clamp of a
current reference, and the check of a sealed frame (R116, R124, R129, R131, R134, R154). -/

namespace Sys2Proof.Machine

open Sys2Proof.Claims

/-- A command that is one effect on the part does that effect. -/
theorem does_run {s : State} {i : Instr} {f : Chip → Chip} {c : Chip} (hi : exec i s = s.run f) (h : f s.chip = c) :
    Does s i c := by
  rw [Does, hi, State.run, h]

/-! What reaches an end of a chain. -/

section Arrivals

variable {c : Chip} {i : Nat} (hup : c.up .hub = true)
include hup

/-- Before the deadline, the first frame at end A of a chain that runs is kept (R131). -/
theorem uplinkArrives_endA (bs : List Byte) (hrun : c.hub.running = true) (hen : (c.chain i).en = true)
    (hearly : c.tg.instant = .vertex ∨ c.tg.instant = .uplink) (hfirst : (c.chain i).frameA = none) :
    c.uplinkArrives i .a bs =
      c.modChain i fun h => { h with frameA := some (parseUplink (frameCtx i true c.tg.perseq) bs) } := by
  rcases hearly with hinst | hinst <;> simp [Chip.uplinkArrives, hup, hrun, hen, hinst, hfirst]

/-- Before the deadline, the first frame at end B of a folded chain that runs is kept (R131). -/
theorem uplinkArrives_endB (bs : List Byte) (hrun : c.hub.running = true) (hen : (c.chain i).en = true)
    (hearly : c.tg.instant = .vertex ∨ c.tg.instant = .uplink) (hfold : (c.chain i).folded = true)
    (hfirst : (c.chain i).frameB = none) :
    c.uplinkArrives i .b bs =
      c.modChain i fun h => { h with frameB := some (parseUplink (frameCtx i true c.tg.perseq) bs) } := by
  rcases hearly with hinst | hinst <;> simp [Chip.uplinkArrives, hup, hrun, hen, hinst, hfold, hfirst]

/-- The downlink at end B of a whole chain is the loop-back where its check passes under the context it was sent with
(R154). -/
theorem downlinkArrives_whole (bs : List Byte) (hrun : c.hub.running = true) (hsent : (c.chain i).dlSent = true)
    (hwhole : (c.chain i).folded = false) :
    c.downlinkArrives i bs = c.modChain i fun h => { h with lbNow := h.lbNow || sealOk (word h.dlCtx) bs } := by
  simp [Chip.downlinkArrives, hup, hrun, hsent, hwhole]

/-- A receiver at end A that loses lock counts once in CHERR, and the loss stands (R116, R161). -/
theorem lockChange_lossA (hlock : (c.chain i).lockA = true) :
    c.lockChange i .a false =
      (c.count (Reg.cherr i) 16 16 1).modChain i fun h => { h with lockA := false, lostA := true } := by
  simp [Chip.lockChange, hup, hlock]

variable {r : Ranging} {t : Nat} (hr : (c.chain i).ranging = some r) (hlaunch : r.launch = some t)
  (hnone : r.result = none)
include hr hlaunch hnone

/-- A mark within 1000 ticks of its launch gives half of its unit intervals past the first 160 (R129). -/
theorem markArrives_in_time {ui : Nat} (hui : ui ≤ 4000) :
    c.markArrives i ui = (c.elapseTick (t + (ui + 3) / 4)).modChain i fun h =>
      { h with ranging := some { r with result := some ((ui - 160 + 1) / 2) } } := by
  simp [Chip.markArrives, hr, hlaunch, hnone, hup, Nat.not_lt.mpr hui]

/-- A ranging without a mark ends 1000 ticks after its launch with 0xFFFF (R129). -/
theorem rngerr_launched :
    c.rngerr i = (c.elapseTick (t + 1000)).modChain i fun h =>
      { h with ranging := some { r with result := some 0xFFFF } } := by
  simp [Chip.rngerr, hr, hlaunch, hnone, hup]

end Arrivals

/-! Bytes and signed fields (R11, R12). -/

@[simp] theorem length_natBytes (n v : Nat) : (natBytes n v).length = n := by
  induction n generalizing v with
  | zero => rfl
  | succ n ih => rw [natBytes, List.length_cons, ih]

/-- The bytes of a number spell it, modulo what they can hold. -/
theorem bytesVal_natBytes (n v : Nat) : bytesVal (natBytes n v) = v % 256 ^ n := by
  induction n generalizing v with
  | zero => rw [natBytes, bytesVal, Nat.pow_zero, Nat.mod_one]
  | succ n ih => rw [natBytes, bytesVal, ih, BitVec.toNat_ofNat, show 2 ^ 8 = 256 from rfl, Nat.pow_succ', Nat.mod_mul]

/-- The bytes of a word spell the word. -/
theorem bytesVal_wordBytes (w : Word) : bytesVal (wordBytes w) = w.toNat :=
  (bytesVal_natBytes 4 _).trans (Nat.mod_eq_of_lt w.isLt)

@[simp] theorem length_wordBytes (w : Word) : (wordBytes w).length = 4 := length_natBytes 4 _

/-- A field of `len` bits is below `2 ^ len`. -/
theorem bitsI_lt (len : Nat) (x : Int) : bitsI len x < 2 ^ len := by
  have hpos : (0 : Int) < (2 ^ len : Nat) := Int.natCast_pos.mpr (Nat.two_pow_pos len)
  have hlt := Int.emod_lt_of_pos x hpos
  have hnonneg := Int.emod_nonneg x (Int.ne_of_gt hpos)
  rw [bitsI]
  omega

/-- A number that fits a signed field reads back from it. -/
theorem signed_bitsI {n : Nat} {x : Int} (hlo : -((2 ^ n : Nat) : Int) ≤ x) (hhi : x < (2 ^ n : Nat)) :
    signed (n + 1) (bitsI (n + 1) x) = x := by
  have hpow : (2 : Nat) ^ (n + 1) = 2 * 2 ^ n := Nat.pow_succ'
  have hcast : (2 : Int) ^ (n + 1) = (2 * 2 ^ n : Nat) := by rw [← hpow, Int.natCast_pow]; rfl
  rw [signed, Nat.mod_eq_of_lt (bitsI_lt _ x), bitsI, Nat.add_sub_cancel, hpow, hcast]
  by_cases hneg : x < 0
  · have hmod : x % (2 * 2 ^ n : Nat) = x + (2 * 2 ^ n : Nat) := by
      rw [← Int.add_emod_right, Int.emod_eq_of_lt] <;> omega
    rw [hmod, if_neg] <;> omega
  · rw [Int.emod_eq_of_lt, if_pos] <;> omega

/-! The chord's record of a slot (R133, R134, Table 4.9). -/

/-- Row 1 of Table 4.9 is for a slot that is EMPTY or not admitted. -/
theorem rowOff_iff {c : Chip} {k : Nat} : c.rowOff k = true ↔ c.slotType k = 0 ∨ (c.hslot k).st ≠ .admitted := by
  simp [Chip.rowOff, Chip.admitted]

/-- A slot of row 1 is sent OFF, whatever the source. -/
theorem recordFor_rowOff {c : Chip} {k : Nat} (h : c.rowOff k = true) (src : Source) :
    c.recordFor src k = (offRecord, false) := by
  simp only [Chip.recordFor, h, if_true]

/-- A slot of the other rows is sent what the source has for it, clamped. -/
theorem recordFor_of_source {c : Chip} {k : Nat} (h : c.rowOff k = false) :
    (∀ t, c.recordFor (.tile t) k = c.clampRecord (c.byteList (cmdAddr t k) 6)) ∧
      c.recordFor .hold k = c.clampRecord (c.hslot k).sent ∧
      c.recordFor .holdover k = c.clampRecord (holdoverRecord (c.hslot k).sent) := by
  refine ⟨fun t => ?_, ?_, ?_⟩ <;> simp only [Chip.recordFor, h, Bool.false_eq_true, if_false]

/-- The fused per-slot maximum is at most 409.5 A (Table 18.5), so it fits a current reference. -/
theorem fmax_le (c : Chip) : c.fmax ≤ 409500 := by
  rw [Chip.fmax, complement]
  split <;> omega

/-- A record with its current reference replaced. -/
def withRef (r : List Byte) (x : Int) : List Byte := [r.getD 0 0] ++ natBytes 3 (bitsI 24 x) ++ r.drop 4

/-- A replaced current reference reads back. -/
theorem ref_withRef (r : List Byte) {x : Int} (hlo : -2 ^ 23 ≤ x) (hhi : x < 2 ^ 23) :
    signed 24 (fieldAt (withRef r x) 1 3) = x := by
  have hbytes : ((withRef r x).drop 1).take 3 = natBytes 3 (bitsI 24 x) := rfl
  have hval : bitsI 24 x % 256 ^ 3 = bitsI 24 x := Nat.mod_eq_of_lt (bitsI_lt 24 x)
  rw [fieldAt, hbytes, bytesVal_natBytes, hval]
  exact signed_bitsI hlo hhi

/-- Where DUTY is 0, a record's current reference is its bytes 1 to 3 (Table 4.3). -/
theorem recordRef_current {r : List Byte} (hduty : (r.getD 0 0).getLsbD 3 = false) :
    recordRef r = some (signed 24 (fieldAt r 1 3)) := by
  rw [recordRef, hduty, if_neg Bool.false_ne_true]

/-- A record within the fused maximum is sent as it is. -/
theorem clampRecord_within {c : Chip} {r : List Byte} (hduty : (r.getD 0 0).getLsbD 3 = false)
    (hle : -(c.fmax : Int) ≤ signed 24 (fieldAt r 1 3) ∧ signed 24 (fieldAt r 1 3) ≤ c.fmax) :
    (c.clampRecord r).1 = r := by
  simp [Chip.clampRecord, recordRef_current hduty, hle]

/-- A record beyond the fused maximum is sent with its reference clamped. -/
theorem clampRecord_beyond {c : Chip} {r : List Byte} (hduty : (r.getD 0 0).getLsbD 3 = false)
    (hgt : ¬(-(c.fmax : Int) ≤ signed 24 (fieldAt r 1 3) ∧ signed 24 (fieldAt r 1 3) ≤ c.fmax)) :
    (c.clampRecord r).1 = withRef r (clampI (-c.fmax) c.fmax (signed 24 (fieldAt r 1 3))) := by
  have hx : clampI (-c.fmax) c.fmax (signed 24 (fieldAt r 1 3)) =
      if signed 24 (fieldAt r 1 3) < 0 then -(c.fmax : Int) else c.fmax := by
    rw [clampI]; split <;> omega
  rw [hx, withRef]
  simp [Chip.clampRecord, recordRef_current hduty, hgt]

/-- A sent current reference is the clamp of the record's, and the rest of the record is sent as it is. -/
theorem clampRecord_clamps (c : Chip) {r : List Byte} (hduty : (r.getD 0 0).getLsbD 3 = false) :
    signed 24 (fieldAt (c.clampRecord r).1 1 3) = clampI (-c.fmax) c.fmax (signed 24 (fieldAt r 1 3)) ∧
      (c.clampRecord r).1.getD 0 0 = r.getD 0 0 ∧ (c.clampRecord r).1.drop 4 = r.drop 4 := by
  by_cases hle : -(c.fmax : Int) ≤ signed 24 (fieldAt r 1 3) ∧ signed 24 (fieldAt r 1 3) ≤ c.fmax
  · rw [clampRecord_within hduty hle, clampI, Int.max_eq_right hle.1, Int.min_eq_right hle.2]
    exact ⟨rfl, rfl, rfl⟩
  · have hfit := fmax_le c
    rw [clampRecord_beyond hduty hle, ref_withRef _ (by rw [clampI]; omega) (by rw [clampI]; omega)]
    exact ⟨rfl, rfl, rfl⟩

/-! Sealed frames (R14, R15, R124). -/

/-- The bytes before a sealed frame's check are the frame's own. -/
theorem take_sealed (ctx : Word) (bs : List Byte) : (sealed ctx bs).take bs.length = bs := List.take_left

/-- The bytes behind them are the check's. -/
theorem drop_sealed (ctx : Word) (bs : List Byte) : (sealed ctx bs).drop bs.length = wordBytes (checkCtx ctx bs) :=
  List.drop_left

@[simp] theorem length_sealed (ctx : Word) (bs : List Byte) : (sealed ctx bs).length = bs.length + 4 := by
  rw [sealed, List.length_append, length_wordBytes]

/-- A sealed frame passes its check under the context it was sealed with. -/
theorem sealOk_sealed (ctx : Word) (bs : List Byte) : sealOk ctx (sealed ctx bs) = true := by
  have hlen : 4 ≤ bs.length + 4 := by omega
  rw [sealOk, length_sealed, Nat.add_sub_cancel, take_sealed, drop_sealed, bytesVal_wordBytes, beq_self_eq_true,
    decide_eq_true hlen, Bool.and_self]

end Sys2Proof.Machine
end

section
/-! CERTIFICATE. The statements of chapter 4: what reaches an end of a chain, the chord's records and sealed frames. -/

namespace Sys2Proof.Certificates

open Sys2Proof.Machine Sys2Proof.Claims

/-- Settles O22: each arrival by what it does to its chain. -/
theorem chainArrivals : Obligations.chain_arrivals := by
  unfold Obligations.chain_arrivals
  intro s i bs hup
  refine ⟨fun hrun hen hinst hfirst => ?_, fun hrun hen hinst hfold hfirst => ?_, fun hrun hsent hwhole => ?_,
    fun hlock => ?_, fun r t ui hr hlaunch hnone hui => ?_, fun r t hr hlaunch hnone => ?_⟩
  · exact does_run (f := (·.uplinkArrives i .a bs)) rfl (uplinkArrives_endA hup bs hrun hen (.inr hinst) hfirst)
  · exact does_run (f := (·.uplinkArrives i .b bs)) rfl (uplinkArrives_endB hup bs hrun hen (.inr hinst) hfold hfirst)
  · exact does_run (f := (·.downlinkArrives i bs)) rfl (downlinkArrives_whole hup bs hrun hsent hwhole)
  · exact does_run (f := (·.lockChange i .a false)) rfl (lockChange_lossA hup hlock)
  · exact does_run (f := (·.markArrives i ui)) rfl (markArrives_in_time hup hr hlaunch hnone hui)
  · exact does_run (f := (·.rngerr i)) rfl (rngerr_launched hup hr hlaunch hnone)

/-- Settles O24: the rows of Table 4.9, the clamp of a reference that fits its field, and a check whose bytes spell it. -/
theorem chordRecordsAndSealedFrames : Obligations.chord_records_and_sealed_frames := by
  unfold Obligations.chord_records_and_sealed_frames
  refine ⟨fun c src k => ⟨fun hoff => ?_, fun htype hadm => ?_, fun r _ hduty => ?_⟩, fun ctx bs => ⟨?_, ?_, ?_⟩⟩
  · exact recordFor_rowOff (rowOff_iff.mpr hoff) src
  · have hrow : c.rowOff k = false := Bool.eq_false_iff.mpr fun h => (rowOff_iff.mp h).elim htype (· hadm)
    exact recordFor_of_source hrow
  · exact clampRecord_clamps c hduty
  · exact sealOk_sealed ctx bs
  · exact take_sealed ctx bs
  · rw [drop_sealed, bytesVal_wordBytes, checkCtx]

end Sys2Proof.Certificates
end

section
/-! SUPPORT. What a command's end leaves of the LOOP block: everything but the stop that a raising asks of a running
injection (R199). -/

namespace Sys2Proof.Machine

/-- The LOOP block but for the stop asked of a running injection. -/
def Chip.loopStill (c : Chip) : LoopBlock := { c.loop with inj := { c.loop.inj with stopReq := none } }

/-- What every step of a fold keeps, the fold keeps. -/
theorem foldl_keeps {α β : Type} (view : Chip → β) (f : Chip → α → Chip) (l : List α) (c : Chip)
    (h : ∀ c a, view (f c a) = view c) : view (l.foldl f c) = view c := by
  induction l generalizing c with
  | nil => rfl
  | cons a l ih => rw [List.foldl_cons, ih, h]

/-- What both branches keep, a choice between them keeps. -/
theorem ite_keeps {β : Type} (view : Chip → β) {p : Prop} [Decidable p] {a b c : Chip} (ha : view a = view c)
    (hb : view b = view c) : view (if p then a else b) = view c := by
  split
  · exact ha
  · exact hb

variable (c : Chip)

/-! Numbering and routing an event leave the block. -/

@[simp] theorem enqueue_loop (e : Event) : (c.enqueue e).loop = c.loop := by
  unfold Chip.enqueue
  exact ite_keeps Chip.loop (Chip.setBit_loop _ _ _) rfl

@[simp] theorem wakeStrand_loop (n : Nat) : (c.wakeStrand n).loop = c.loop :=
  ite_keeps Chip.loop rfl rfl

@[simp] theorem alertEvent_loop (n : Nat) : (c.alertEvent n).loop = c.loop :=
  ite_keeps Chip.loop rfl rfl

@[simp] theorem ibrEvent_loop (n : Nat) : (c.ibrEvent n).loop = c.loop :=
  ite_keeps Chip.loop rfl rfl

@[simp] theorem raiseIf_loop (b : Bool) (e k : Nat) : (c.raiseIf b e k).loop = c.loop :=
  ite_keeps Chip.loop rfl rfl

@[simp] theorem route_loop (e : Event) : (c.route e).loop = c.loop := by
  have queued : ∀ (p : Prop) [Decidable p] (n : Nat), (if p then (c.enqueue e).wakeStrand n else c).loop = c.loop :=
    fun p _ n => ite_keeps Chip.loop ((wakeStrand_loop _ n).trans (enqueue_loop c e)) rfl
  have alerted : ∀ (p : Prop) [Decidable p] (d : Chip), (if p then d.alertEvent e.ev else d).loop = d.loop :=
    fun p _ d => ite_keeps Chip.loop (alertEvent_loop d _) rfl
  have requested : ∀ (p : Prop) [Decidable p] (d : Chip), (if p then d.ibrEvent e.ev else d).loop = d.loop :=
    fun p _ d => ite_keeps Chip.loop (ibrEvent_loop d _) rfl
  unfold Chip.route
  refine Eq.trans (ite_keeps Chip.loop rfl rfl) ?_
  rw [requested, alerted, queued]

@[simp] theorem pmonAdd1_loop (o : Occur) (k i : Nat) : (c.pmonAdd1 o k i).loop = c.loop := by
  unfold Chip.pmonAdd1
  exact ite_keeps Chip.loop
    (ite_keeps Chip.loop ((raiseIf_loop _ _ _ _).trans (Chip.setBit_loop _ _ _)) rfl) rfl

@[simp] theorem pmonAdd_loop (o : Occur) (k : Nat) : (c.pmonAdd o k).loop = c.loop :=
  ite_keeps Chip.loop (foldl_keeps Chip.loop _ _ _ fun c i => pmonAdd1_loop c o k i) rfl

@[simp] theorem splPulse_loop : c.splPulse.loop = c.loop :=
  ite_keeps Chip.loop rfl rfl

@[simp] theorem splNotice_loop (b : NoticeBody) (n : Nat) : (c.splNotice b n).loop = c.loop := by
  unfold Chip.splNotice
  exact ite_keeps Chip.loop rfl (ite_keeps Chip.loop (Chip.setBit_loop _ _ _)
    (ite_keeps Chip.loop (splPulse_loop _) rfl))

@[simp] theorem number_loop (r : Raise) : (c.number r).loop = c.loop := by
  unfold Chip.number
  dsimp only
  split
  · rw [splNotice_loop, route_loop, pmonAdd_loop]
  · rw [route_loop, pmonAdd_loop]

/-! A raising's status words leave the block; the raising itself can ask a running injection to stop. -/

@[simp] theorem setStatus_loop (e : Nat) (p : Nat × Nat) : (c.setStatus e p).loop = c.loop := by
  unfold Chip.setStatus
  exact ite_keeps Chip.loop (Chip.putFld_loop _ _ _ _ _) rfl

@[simp] theorem statusEvent_loop (e s : Nat) : (c.statusEvent e s).loop = c.loop :=
  ite_keeps Chip.loop (foldl_keeps Chip.loop _ _ _ fun c p => setStatus_loop c e p) rfl

/-- What leaves the block leaves its part that a command's end leaves. -/
theorem loopStill_congr {c d : Chip} (h : d.loop = c.loop) : d.loopStill = c.loopStill := by
  rw [Chip.loopStill, h, Chip.loopStill]

theorem atRaise_loopStill (r : Raise) : (c.atRaise r).loopStill = c.loopStill := by
  have status : (c.statusEvent r.ev r.src).loopStill = c.loopStill := loopStill_congr (statusEvent_loop c _ _)
  exact ite_keeps Chip.loopStill status status

theorem numberRest_loopStill : ∀ (n : Nat) (c : Chip), (Chip.numberRest n c).loopStill = c.loopStill
  | 0, _ => rfl
  | n + 1, c => by
    unfold Chip.numberRest
    split
    · rfl
    · rw [numberRest_loopStill n, foldl_keeps _ _ _ _ fun c r => loopStill_congr (number_loop c r),
        foldl_keeps _ _ _ _ atRaise_loopStill]
      rfl

/-! The flush, the snapshot and the inputs that blocks follow leave the block. -/

@[simp] theorem flushDue_loop : c.flushDue.loop = c.loop :=
  ite_keeps Chip.loop rfl <| ite_keeps Chip.loop (ite_keeps Chip.loop rfl rfl) <|
    ite_keeps Chip.loop rfl (ite_keeps Chip.loop rfl rfl)

@[simp] theorem takeSnapshot_loop (body : List Byte) : (c.takeSnapshot body).loop = c.loop := by
  unfold Chip.takeSnapshot
  refine ite_keeps Chip.loop rfl ?_
  split
  · rfl
  · exact Chip.setBit_loop _ _ _

@[simp] theorem settleSnapshot_loop (no : Nat × Nat) : (c.settleSnapshot no).loop = c.loop := by
  unfold Chip.settleSnapshot
  split
  · rfl
  · exact takeSnapshot_loop c _

@[simp] theorem twbFollow_loop : c.twbFollow.loop = c.loop :=
  ite_keeps Chip.loop rfl (ite_keeps Chip.loop rfl rfl)

@[simp] theorem modRail_loop (n : Nat) (f : Rail → Rail) : (c.modRail n f).loop = c.loop := rfl

@[simp] theorem railFault_loop (n : Nat) : (c.railFault n).loop = c.loop := by
  unfold Chip.railFault
  rw [Chip.raise_loop, Chip.setBit_loop, Chip.setBit_loop, modRail_loop]

@[simp] theorem pgLevel_loop (n : Nat) : (c.pgLevel n).loop = c.loop := by
  unfold Chip.pgLevel
  exact ite_keeps Chip.loop rfl (ite_keeps Chip.loop (railFault_loop _ n) (modRail_loop _ n _))

@[simp] theorem seqInputs_loop : c.seqInputs.loop = c.loop :=
  ite_keeps Chip.loop (foldl_keeps Chip.loop _ _ _ pgLevel_loop) rfl

/-! The whole of a command's end. -/

theorem settleEvents_loopStill : c.settleEvents.loopStill = c.loopStill := by
  have raised : (c.raised.foldl Chip.atRaise { c with raised := [] }).loopStill = c.loopStill :=
    foldl_keeps Chip.loopStill _ _ _ atRaise_loopStill
  refine ite_keeps Chip.loopStill raised ?_
  rw [loopStill_congr (flushDue_loop _), numberRest_loopStill,
    foldl_keeps _ _ _ _ fun c r => loopStill_congr (number_loop c r)]
  exact raised

/-- A command's end leaves the LOOP block but for a stop asked of a running injection. -/
theorem settle_loopStill : c.settle.loopStill = c.loopStill := by
  show ((c.seqInputs.settleEvents.settleSnapshot _).twbFollow).loopStill = c.loopStill
  rw [loopStill_congr (twbFollow_loop _), loopStill_congr (settleSnapshot_loop _ _), settleEvents_loopStill,
    loopStill_congr (seqInputs_loop c)]

/-! So a capture goes on as the command left it. -/

@[simp] theorem settle_capRun : c.settle.loop.inj.capRun = c.loop.inj.capRun :=
  congrArg (·.inj.capRun) (settle_loopStill c)

@[simp] theorem settle_capPtr : c.settle.loop.inj.capPtr = c.loop.inj.capPtr :=
  congrArg (·.inj.capPtr) (settle_loopStill c)

@[simp] theorem settle_capBuf : c.settle.loop.inj.capBuf = c.loop.inj.capBuf :=
  congrArg (·.inj.capBuf) (settle_loopStill c)

@[simp] theorem settle_capBase : c.settle.loop.inj.capBase = c.loop.inj.capBase :=
  congrArg (·.inj.capBase) (settle_loopStill c)

end Sys2Proof.Machine
end

section
/-! SUPPORT. The writes of the LOOP registers: a loop's configuration, the coefficient commit, injection and capture
(R169 to R171, R191, R199, R201). -/

namespace Sys2Proof.Machine

variable {c : Chip} {v : Word}

/-! Plain writes, seen from the rest of the part. -/

/-- A plain write leaves the LOOP block's state. -/
@[simp] theorem plainWrite_loop (c : Chip) (a : Nat) (v : Word) : (c.plainWrite a v).loop = c.loop := by
  unfold Chip.plainWrite
  split <;> rfl

/-- A plain write leaves every other register. -/
theorem reg_plainWrite_ne (h : c.Inv) {a b : Nat} (hb : b ≠ a) (v : Word) : (c.plainWrite a v).reg b = c.reg b := by
  cases hrow : regRow a with
  | none => rw [plainWrite_reserved c v hrow]
  | some r => rw [plainWrite_of_row c v hrow, reg_setReg h.regs, if_neg hb]

/-! LnCFG (R169 to R171). -/

/-- When a write of LnCFG is refused (R171, Table 5.9). -/
theorem cfgRefused_iff (c : Chip) (n : Nat) (v : Word) :
    c.cfgRefused n v = true ↔
      (c.loopEn n = true ∧ (v ^^^ c.reg (Reg.lnCfg n)) &&& 0x1F3F86 ≠ 0) ∨
      (n = 0 ∧ v.getLsbD 2 = true) ∨ (n ≠ 0 ∧ (v.getLsbD 4 = true ∨ v.getLsbD 5 = true)) ∨
      (v.getLsbD 6 = true ∧ (v.getLsbD 2 = false ∨ c.reg (Reg.lnVffnom n) = 0 ∨ c.reg (Reg.lnVffmin n) = 0)) := by
  simp only [Chip.cfgRefused, Bool.or_eq_true, Bool.and_eq_true, decide_eq_true_eq, Bool.not_eq_true', or_assoc,
    ← and_or_left]

/-- The loop that an address of LnCFG belongs to. -/
theorem find_lnCfg : ∀ n : Fin 4, ((List.range 4).find? fun k =>
    Reg.lnCfg n.val = Reg.lnCfg k || Reg.lnCfg n.val = Reg.lnVffnom k || Reg.lnCfg n.val = Reg.lnVffmin k) =
      some n.val := by decide

/-- A write of a loop's LnCFG reaches that loop. -/
theorem regWrite_lnCfg (c : Chip) (n : Fin 4) (v : Word) : c.regWrite (Reg.lnCfg n.val) v = c.writeLnCfg n.val v := by
  have hplace : ∀ n : Fin 4, blockNo (Reg.lnCfg n.val) = 4 ∧ ¬ 0x40004E00 ≤ Reg.lnCfg n.val ∧
      Reg.lnCfg n.val ≠ Reg.coefcmt ∧ Reg.lnCfg n.val ≠ Reg.injctl ∧ Reg.lnCfg n.val ≠ Reg.capctl := by decide
  obtain ⟨hblock, hlow, hcoef, hinj, hcap⟩ := hplace n
  rw [Chip.regWrite, hblock]
  show (if 0x40004E00 ≤ Reg.lnCfg n.val then _ else _) = _
  rw [if_neg hlow, writeLoop, if_neg hcoef, if_neg hinj, if_neg hcap, find_lnCfg]
  exact if_pos rfl

/-- A refused configuration sets CFGREF and nothing more. -/
theorem writeLnCfg_refused {n : Nat} (h : c.cfgRefused n v = true) : c.writeLnCfg n v = c.setBit Reg.loopstat 3 :=
  if_pos h

/-- A configuration that keeps a loop enabled is stored. -/
theorem writeLnCfg_kept_enabled {n : Nat} (h : c.cfgRefused n v = false) (hen : v.getLsbD 0 = true)
    (hwas : c.loopEn n = true) : c.writeLnCfg n v = c.plainWrite (Reg.lnCfg n) v := by
  rw [Chip.writeLnCfg, h, hen, hwas]
  rfl

/-- A configuration that enables a loop asks for its start. -/
theorem writeLnCfg_enabling {n : Nat} (h : c.cfgRefused n v = false) (hen : v.getLsbD 0 = true)
    (hwas : c.loopEn n = false) : c.writeLnCfg n v =
      (c.plainWrite (Reg.lnCfg n) v).modLoop n fun l => { l with startReq := true, goalSet := false } := by
  rw [Chip.writeLnCfg, h, hen, hwas]
  rfl

/-- A configuration without EN takes an asked start back. -/
theorem writeLnCfg_disabling {n : Nat} (h : c.cfgRefused n v = false) (hen : v.getLsbD 0 = false) :
    c.writeLnCfg n v = (c.plainWrite (Reg.lnCfg n) v).modLoop n fun l => { l with startReq := false } := by
  rw [Chip.writeLnCfg, h, hen]
  rfl

/-! COEFCMT (R191). -/

/-- COEFCMT written with GO makes the commit pending. -/
theorem regWrite_coefcmt_go (c : Chip) (h : v.getLsbD 0 = true) :
    c.regWrite Reg.coefcmt v = { c with loop.cpend := true } :=
  if_pos h

/-! INJCTL (R199). -/

theorem regWrite_injctl (c : Chip) (v : Word) : c.regWrite Reg.injctl v = c.writeInjctl v := rfl

/-- INJCTL written with EN where nothing runs and EN was 0 asks for a start. -/
theorem writeInjctl_start (hen : v.getLsbD 0 = true) (hrun : c.loop.inj.run = false)
    (hwas : c.bit Reg.injctl 0 = false) :
    c.writeInjctl v = { c.plainWrite Reg.injctl v with loop.inj.startReq := true } := by
  simp only [Chip.writeInjctl, hen, hrun, hwas, plainWrite_loop, Bool.not_false, Bool.or_true, Bool.and_true,
    Bool.false_eq_true, if_false]

/-- INJCTL written without EN while an injection runs clears EN alone. -/
theorem writeInjctl_stop (hen : v.getLsbD 0 = false) (hrun : c.loop.inj.run = true) :
    c.writeInjctl v = { c.putFld Reg.injctl 0 1 0 with loop.inj.startReq := false } := by
  rw [Chip.writeInjctl, hen, if_pos hrun]
  rfl

/-! CAPCTL (R201). -/

theorem regWrite_capctl (c : Chip) (v : Word) : c.regWrite Reg.capctl v = c.writeCapctl v := rfl

/-- A base off the grid of 64 KiB is no base of a capture. -/
theorem capBaseOk_unaligned {a : Nat} (h : a % 65536 ≠ 0) : capBaseOk a = false := by
  rw [capBaseOk, decide_eq_false h, Bool.false_and, Bool.false_and]

/-- CAPCTL written with EN while no capture runs: one starts at the first pair of the first buffer where CAPBASE is a
region of data SRAM, and CFGERR is set where it is not. -/
theorem writeCapctl_start (hinv : c.Inv) (hen : v.getLsbD 0 = true) (hrun : c.loop.inj.capRun = false) :
    c.writeCapctl v =
      if capBaseOk (c.reg Reg.capbase).toNat then
        { c.plainWrite Reg.capctl v with loop.inj := { c.loop.inj with
            capRun := true, capDec := 0, capBuf := 0, capPtr := 0, capBase := (c.reg Reg.capbase).toNat } }
      else (c.plainWrite Reg.capctl v).setBit Reg.capstat 6 := by
  have hbase : (c.plainWrite Reg.capctl v).reg Reg.capbase = c.reg Reg.capbase := reg_plainWrite_ne hinv (by decide) v
  simp only [Chip.writeCapctl, hbase, hen, hrun, plainWrite_loop, Bool.not_true, Bool.and_false, Bool.false_eq_true,
    if_false]

end Sys2Proof.Machine
end

section
/-! CERTIFICATE. The statement of chapter 5 on configuration, coefficients, injection and capture. -/

namespace Sys2Proof.Certificates

open Sys2Proof.Machine Sys2Proof.Claims

/-- Settles O25: each LOOP register by its write, and a started capture by what a command's end leaves of it. -/
theorem loopConfigurationAndInjection : Obligations.loop_configuration_and_injection := by
  unfold Obligations.loop_configuration_and_injection
  refine ⟨fun s m n v _ hg => ⟨fun href => ?_, fun href hen hwas => ?_, fun href hen hwas => ?_, fun href hen => ?_, ?_⟩,
    fun s m v hinv => ⟨fun hg hgo => ?_, fun hg hen hrun hwas => ?_, fun hg hen hrun => ?_,
      fun hg hen hrun hbase => ?_, fun hg hen hrun hbase => ?_⟩⟩
  · exact does_write rfl hg (by rw [regWrite_lnCfg, writeLnCfg_refused href])
  · exact does_write rfl hg (by rw [regWrite_lnCfg, writeLnCfg_kept_enabled href hen hwas])
  · exact does_write rfl hg (by rw [regWrite_lnCfg, writeLnCfg_enabling href hen hwas])
  · exact does_write rfl hg (by rw [regWrite_lnCfg, writeLnCfg_disabling href hen])
  · simpa only [Fin.val_eq_zero_iff, ne_eq] using cfgRefused_iff s.chip n.val v
  · exact does_write rfl hg (regWrite_coefcmt_go _ hgo)
  · exact does_write rfl hg (by rw [regWrite_injctl, writeInjctl_start hen hrun hwas])
  · exact does_write rfl hg (by rw [regWrite_injctl, writeInjctl_stop hen hrun])
  · have hok : capBaseOk (s.chip.reg Reg.capbase).toNat = true := by
      rcases hbase with h | h | h | h <;> rw [h] <;> rfl
    refine ⟨_, does_write rfl hg (by rw [regWrite_capctl, writeCapctl_start hinv hen hrun, if_pos hok]), ?_⟩
    exact ⟨settle_capRun _, settle_capPtr _, settle_capBuf _, settle_capBase _⟩
  · exact does_write rfl hg (by
      rw [regWrite_capctl, writeCapctl_start hinv hen hrun, capBaseOk_unaligned hbase, if_neg Bool.false_ne_true])

end Sys2Proof.Certificates
end

section
/-! SUPPORT. What a command's end leaves of the tiles, the failover controller and the answer, and of the registers of
the blocks below SEQ's (R436 to R440, R527, R529). -/

namespace Sys2Proof.Machine

theorem settle_still (c : Chip) : c.settle.still = c.still := by
  show ((c.seqInputs.settleEvents.settleSnapshot _).twbFollow).still = c.still
  rw [twbFollow_still, snapshot_still, settleEvents_still, seqInputs_still]

@[simp] theorem settle_tiles (c : Chip) : c.settle.tiles = c.tiles := (congrArg Chip.tiles (settle_still c) :)

@[simp] theorem settle_fo (c : Chip) : c.settle.fo = c.fo := (congrArg Chip.fo (settle_still c) :)

@[simp] theorem settle_answer (c : Chip) : c.settle.answer = c.answer := (congrArg Chip.answer (settle_still c) :)

@[simp] theorem settle_tile (c : Chip) (t : Nat) : c.settle.tile t = c.tile t := by
  rw [Chip.tile, settle_tiles, Chip.tile]

/-- The register file is canonical, and every register below SEQ's block (Table 1.12) reads as in `base`. -/
structure Chip.LowRegs (base c : Chip) : Prop where
  wf  : twf regReset 0 c.regs = true
  val : ∀ a < 0x40009000, c.reg a = base.reg a

namespace Chip.LowRegs

variable {base c : Chip}

/-- What leaves the register file as it is keeps its low part. -/
theorem of_regs {d : Chip} (h : base.LowRegs c) (e : d.regs = c.regs) : base.LowRegs d :=
  ⟨e ▸ h.wf, fun a ha => (congrArg (fun r => (tget r a).getD (regReset a)) e).trans (h.val a ha)⟩

/-- A register of SEQ's block or above is none of them. -/
theorem setReg (h : base.LowRegs c) {b : Nat} (hb : 0x40009000 ≤ b) (v : Word) : base.LowRegs (c.setReg b v) :=
  ⟨setReg_wf h.wf b v, fun a ha => by rw [reg_setReg h.wf, if_neg (Nat.ne_of_lt (Nat.lt_of_lt_of_le ha hb)),
    h.val a ha]⟩

theorem setBit (h : base.LowRegs c) {b : Nat} (hb : 0x40009000 ≤ b) (i : Nat) : base.LowRegs (c.setBit b i) :=
  h.setReg hb _

theorem ite {p : Prop} [Decidable p] {d e : Chip} (hd : base.LowRegs d) (he : base.LowRegs e) :
    base.LowRegs (if p then d else e) := by
  split
  · exact hd
  · exact he

/-- What every step of a fold keeps, the fold keeps. -/
theorem foldl {α : Type} {f : Chip → α → Chip} (hf : ∀ {c} a, base.LowRegs c → base.LowRegs (f c a)) (l : List α)
    (h : base.LowRegs c) : base.LowRegs (l.foldl f c) :=
  List.foldlRecOn l f h fun _ hc a _ => hf a hc

/-! Numbering and routing an event. -/

theorem enqueue (h : base.LowRegs c) (e : Event) : base.LowRegs (c.enqueue e) := by
  unfold Chip.enqueue
  refine ite (setBit ?_ (by decide) 17) (h.of_regs rfl)
  exact h.of_regs rfl

theorem wakeStrand (h : base.LowRegs c) (n : Nat) : base.LowRegs (c.wakeStrand n) :=
  h.of_regs (ite_keeps Chip.regs rfl rfl)

theorem alertEvent (h : base.LowRegs c) (e : Nat) : base.LowRegs (c.alertEvent e) :=
  ite ((h.setBit (Nat.le_add_right_of_le (by decide)) _).of_regs rfl) h

theorem ibrEvent (h : base.LowRegs c) (e : Nat) : base.LowRegs (c.ibrEvent e) :=
  ite ((h.setBit (Nat.le_add_right_of_le (by decide)) _).of_regs rfl) h

theorem route (h : base.LowRegs c) (e : Event) : base.LowRegs (c.route e) := by
  unfold Chip.route
  have hqueue := ite (p := (c.reg (Reg.route e.ev)).getLsbD 3 = true)
    ((h.enqueue e).wakeStrand (fld (c.reg (Reg.route e.ev)) 0 3)) h
  have halert := ite (p := (c.reg (Reg.route e.ev)).getLsbD 8 = true) (hqueue.alertEvent e.ev) hqueue
  have hibr := ite (p := (c.reg (Reg.route e.ev)).getLsbD 9 = true) (halert.ibrEvent e.ev) halert
  exact ite (hibr.of_regs rfl) hibr

theorem pmonAdd1 (h : base.LowRegs c) (o : Occur) (k i : Nat) : base.LowRegs (c.pmonAdd1 o k i) := by
  unfold Chip.pmonAdd1
  have hadd : ∀ n, base.LowRegs { c with pmon := c.pmon.set i n } := fun _ => h.of_regs rfl
  exact ite (ite (((hadd _).setBit (by decide) i).of_regs (ite_keeps Chip.regs rfl rfl)) (hadd _)) h

theorem pmonAdd (h : base.LowRegs c) (o : Occur) (k : Nat) : base.LowRegs (c.pmonAdd o k) :=
  ite (foldl (fun i hc => hc.pmonAdd1 o k i) _ h) h

theorem splPulse (h : base.LowRegs c) : base.LowRegs c.splPulse :=
  h.of_regs (ite_keeps Chip.regs rfl rfl)

theorem splNotice (h : base.LowRegs c) (b : NoticeBody) (n : Nat) : base.LowRegs (c.splNotice b n) := by
  unfold Chip.splNotice
  refine ite h (ite (setBit ?_ (by decide) 1) (ite (splPulse ?_) ?_))
  all_goals exact h.of_regs rfl

theorem number (h : base.LowRegs c) (r : Raise) : base.LowRegs (c.number r) := by
  unfold Chip.number
  have hroute : ∀ n e, base.LowRegs (({ c with ev.seq := n }.pmonAdd { sel := 11, point := some r.ev }).route e) :=
    fun n e => route (pmonAdd (c := { c with ev.seq := n }) (h.of_regs rfl) _ _) e
  dsimp only
  split
  · exact (hroute _ _).splNotice _ _
  · exact hroute _ _

/-! What a raising does at once, and the rounds of numbering. -/

theorem setStatus (h : base.LowRegs c) (e : Nat) (p : Nat × Nat) : base.LowRegs (c.setStatus e p) := by
  have haddr : 0x40009000 ≤ Reg.pstat p.1 := Nat.le_add_right_of_le (by decide)
  unfold Chip.setStatus
  exact ite ((h.setBit haddr _).setReg haddr _) (h.setBit haddr _)

theorem atRaise (h : base.LowRegs c) (r : Raise) : base.LowRegs (c.atRaise r) := by
  have hstatus : base.LowRegs (c.statusEvent r.ev r.src) := ite (foldl (fun p hc => hc.setStatus r.ev p) _ h) h
  exact ite (hstatus.of_regs rfl) hstatus

theorem numberRest (n : Nat) (h : base.LowRegs c) : base.LowRegs (Chip.numberRest n c) := by
  induction n generalizing c with
  | zero => exact h
  | succ n ih =>
    unfold Chip.numberRest
    split
    · exact h
    · exact ih (foldl (fun r hc => hc.number r) _ (foldl (fun r hc => hc.atRaise r) _ (h.of_regs rfl)))

theorem settleEvents (h : base.LowRegs c) : base.LowRegs c.settleEvents := by
  have hraised : base.LowRegs (c.raised.foldl Chip.atRaise { c with raised := [] }) :=
    foldl (fun r hc => hc.atRaise r) _ (h.of_regs rfl)
  have hflush : ∀ d : Chip, d.flushDue.regs = d.regs := fun d =>
    ite_keeps Chip.regs rfl <| ite_keeps Chip.regs (ite_keeps Chip.regs rfl rfl) <|
      ite_keeps Chip.regs rfl (ite_keeps Chip.regs rfl rfl)
  refine ite (hraised.of_regs rfl) (of_regs (numberRest 9 ?_) (hflush _))
  exact foldl (fun r hc => hc.number r) _ (hraised.of_regs rfl)

/-! The snapshot and the inputs that blocks follow. -/

theorem settleSnapshot (h : base.LowRegs c) (no : Nat × Nat) : base.LowRegs (c.settleSnapshot no) := by
  have htake : ∀ body, base.LowRegs (c.takeSnapshot body) := fun body => by
    unfold Chip.takeSnapshot
    refine ite h ?_
    split
    · exact h.of_regs rfl
    · exact h.setBit (by decide) 9
  unfold Chip.settleSnapshot
  split
  · exact h
  · exact (htake _).of_regs rfl

theorem modRail (h : base.LowRegs c) (n : Nat) (f : Rail → Rail) : base.LowRegs (c.modRail n f) := h.of_regs rfl

theorem railFault (h : base.LowRegs c) (n : Nat) : base.LowRegs (c.railFault n) := by
  unfold Chip.railFault
  refine of_regs ?_ (Chip.raise_regs _ _ _)
  exact setBit (setBit (h.modRail n _) (Nat.le_add_right_of_le (by decide)) 17) (by decide) n

theorem pgLevel (h : base.LowRegs c) (n : Nat) : base.LowRegs (c.pgLevel n) := by
  unfold Chip.pgLevel
  exact ite h (ite (railFault (h.modRail n _) n) (h.modRail n _))

theorem settle (h : base.LowRegs c) : base.LowRegs c.settle := by
  have hinputs : base.LowRegs c.seqInputs := ite (foldl (fun n hc => hc.pgLevel n) _ h) h
  exact (hinputs.settleEvents.settleSnapshot _).of_regs (ite_keeps Chip.regs rfl (ite_keeps Chip.regs rfl rfl))

end Chip.LowRegs

/-- A command's end leaves every register below SEQ's block. -/
theorem reg_settle {c : Chip} (h : twf regReset 0 c.regs = true) {a : Nat} (ha : a < 0x40009000) :
    c.settle.reg a = c.reg a :=
  (Chip.LowRegs.settle ⟨h, fun _ _ => rfl⟩).val a ha

/-! A flag that hardware sets. -/

/-- Putting 1 in a field of one bit sets that bit. -/
theorem getLsbD_put_one (w : Word) {i : Nat} (hi : i < 32) : (put w i 1 1).getLsbD i = true := by
  have hpos : 0 < 2 ^ i := Nat.two_pow_pos i
  have hdiv := Nat.div_add_mod w.toNat (2 ^ i)
  rw [put, BitVec.getLsbD_ofNat, fld, Nat.testBit_eq_decide_div_mod_eq, Nat.pow_one, decide_eq_true hi, Bool.true_and,
    decide_eq_true_eq]
  rcases Nat.mod_two_eq_zero_or_one (w.toNat / 2 ^ i) with hb | hb
  · rw [hb, Nat.zero_mul, Nat.sub_zero, Nat.mod_eq_of_lt Nat.one_lt_two, Nat.one_mul, Nat.add_div_right _ hpos]
    omega
  · have hle : 2 ^ i ≤ w.toNat := Nat.le_of_not_lt fun hlt => by rw [Nat.div_eq_of_lt hlt] at hb; cases hb
    rw [hb, Nat.mod_eq_of_lt Nat.one_lt_two, Nat.one_mul, Nat.sub_add_cancel hle, hb]

/-- A set flag reads 1. -/
theorem bit_setBit {c : Chip} (h : twf regReset 0 c.regs = true) (a : Nat) {i : Nat} (hi : i < 32) :
    (c.setBit a i).bit a i = true := by
  rw [Chip.bit, Chip.setBit, Chip.putFld, reg_setReg h, if_pos rfl, getLsbD_put_one _ hi]

end Sys2Proof.Machine
end

section
/-! SUPPORT. The tiles and the failover controller: TILECTL, the load check, a tile's failure, and the chord of a failed
period (R291 to R303, R322). -/

namespace Sys2Proof.Machine

open Sys2Proof.Claims

variable {c : Chip}

/-- Both tiles are there. -/
theorem tile_lt (h : c.Inv) (t : Fin 2) : t.val < c.tiles.length := Nat.lt_of_lt_of_eq t.isLt h.tiles.symm

/-- A flag below SEQ's block that a write sets reads 1 at the end of the command. -/
theorem bit_settle_ok_setBit (h : twf regReset 0 c.regs = true) {a i : Nat} (ha : a < 0x40009000) (hi : i < 32) :
    (ok (c.setBit a i)).settle.bit a i = true := by
  have hset : twf regReset 0 (ok (c.setBit a i)).regs = true := setReg_wf h _ _
  rw [Chip.bit, reg_settle hset ha]
  exact bit_setBit h a hi

/-! TILECTL and TnARM (R298, R303, R308, R322). -/

/-- A plain write leaves the failover controller. -/
@[simp] theorem plainWrite_fo (c : Chip) (a : Nat) (v : Word) : (c.plainWrite a v).fo = c.fo := by
  unfold Chip.plainWrite
  split <;> rfl

/-- A plain write keeps the register file canonical. -/
theorem plainWrite_wf (h : twf regReset 0 c.regs = true) (a : Nat) (v : Word) :
    twf regReset 0 (c.plainWrite a v).regs = true := by
  unfold Chip.plainWrite
  split
  · exact h
  · exact setReg_wf h _ _

theorem regWrite_tilectl (c : Chip) (v : Word) : c.regWrite Reg.tilectl v = c.writeTilectl v := rfl

/-- SWAP in DUAL is kept for a chord. -/
theorem regWrite_swap_dual {v : Word} (hswap : v.getLsbD 1 = true) (hres : v.getLsbD 2 = false)
    (hfo : c.fo.fo = .dual) :
    c.regWrite Reg.tilectl v = { c.plainWrite Reg.tilectl v with fo := { c.fo with swapReq := true } } := by
  simp only [regWrite_tilectl, Chip.writeTilectl, hswap, hres, plainWrite_fo, hfo, Bool.not_true, Bool.false_and,
    Bool.false_eq_true, if_false, beq_self_eq_true, if_true]

/-- SWAP outside DUAL is refused with SWAPREF. -/
theorem regWrite_swap_refused {v : Word} (hswap : v.getLsbD 1 = true) (hres : v.getLsbD 2 = false)
    (hfo : c.fo.fo ≠ .dual) : c.regWrite Reg.tilectl v = (c.plainWrite Reg.tilectl v).setBit Reg.tilestat 8 := by
  simp only [regWrite_tilectl, Chip.writeTilectl, hswap, hres, plainWrite_fo, beq_eq_false_iff_ne.mpr hfo,
    Bool.not_true, Bool.false_and, Bool.false_eq_true, if_false]

/-- RESUME in HOLD is kept. -/
theorem regWrite_resume_hold {v : Word} (hswap : v.getLsbD 1 = false) (hres : v.getLsbD 2 = true)
    (hfo : c.fo.fo = .hold) :
    c.regWrite Reg.tilectl v = { c.plainWrite Reg.tilectl v with fo := { c.fo with resumeReq := true } } := by
  simp only [regWrite_tilectl, Chip.writeTilectl, hswap, hres, plainWrite_fo, hfo, Bool.not_false, if_true,
    beq_self_eq_true, Bool.and_self]

/-- A write in the LOOP block: the tile-control registers stand above the others. -/
theorem regWrite_loopBlock (c : Chip) {a : Nat} (h : blockNo a = 4) (v : Word) :
    c.regWrite a v = if 0x40004E00 ≤ a then writeTileCtl c a v else writeLoop c a v := by
  rw [Chip.regWrite, h]
  rfl

/-- A write of a tile's TnARM arms that tile where its bit 0 is 1. -/
theorem regWrite_tnArm (c : Chip) (t : Fin 2) (v : Word) :
    c.regWrite (Reg.tnArm t.val) v = if v.getLsbD 0 then c.armTile t.val else c := by
  have hplace : ∀ t : Fin 2, blockNo (Reg.tnArm t.val) = 4 ∧ 0x40004E00 ≤ Reg.tnArm t.val ∧
      Reg.tnArm t.val ≠ Reg.tilectl := by decide
  obtain ⟨hblock, hhigh, hne⟩ := hplace t
  rw [regWrite_loopBlock c hblock, if_pos hhigh, writeTileCtl, if_neg hne]
  obtain rfl | rfl : t = 0 ∨ t = 1 := by omega
  · exact if_pos rfl
  · exact (if_neg (by decide)).trans (if_pos rfl)

/-- A tile that is up, not being checked and not active begins its load check. -/
theorem armTile_idle {t : Fin 2} (hup : c.up (tileDom t.val) = true) (hbusy : (c.tile t.val).loadBusy = false)
    (hfree : c.fo.fo = .hold ∨ c.fo.act ≠ t) :
    c.armTile t.val = c.modTile t.val fun T => { T with loadBusy := true } := by
  have hnot : ¬(c.fo.fo ≠ .hold ∧ c.fo.act.val = t.val) := fun ⟨hfo, hact⟩ =>
    hfree.elim hfo fun hne => hne (Fin.ext hact)
  simp [Chip.armTile, hup, hbusy, hnot]

/-! The load check and the mirror check (R295, R303). -/

/-- The program in a tile's loop RAM has good parity and the stored check (R303). -/
def Chip.programOk (c : Chip) (t : Nat) : Bool :=
  !c.parityBad (loopRam t + 0x2000) (c.rf (Reg.tnPlen t) 0 14) &&
    check (c.byteList (loopRam t + 0x2000) (c.rf (Reg.tnPlen t) 0 14)) = c.reg (Reg.tnPchk t)

theorem programOk_iff {t : Nat} : c.programOk t = true ↔
    c.parityBad (loopRam t + 0x2000) (c.rf (Reg.tnPlen t) 0 14) = false ∧
      check (c.byteList (loopRam t + 0x2000) (c.rf (Reg.tnPlen t) 0 14)) = c.reg (Reg.tnPchk t) := by
  simp [Chip.programOk]

/-- A tile after its load check of `n` bytes: what it was stands only where the program is good. -/
def Tile.checked (T : Tile) (n : Nat) (good : Bool) : Tile :=
  { T with loadBusy := false, loaded := good, plen := n, ready := T.ready && good, sby := T.sby && good }

@[simp] theorem setBit_tile (c : Chip) (a i k : Nat) : (c.setBit a i).tile k = c.tile k := rfl

/-- The end of a load check: the tile is as checked, and READY where the program is good and the worst case fits. -/
theorem loadCheckDone_busy {t : Nat} (hup : c.up .hub = true) (hbusy : (c.tile t).loadBusy = true)
    (hlen : c.rf (Reg.tnPlen t) 0 14 ≤ 8192) :
    c.loadCheckDone t =
      let d := c.modTile t fun T => T.checked (c.rf (Reg.tnPlen t) 0 14) (c.programOk t)
      if c.programOk t then
        (if c.fo.wcs ≤ 4 * (c.tg.chord - c.tg.updl) then d.modTile t fun T => { T with ready := true } else d)
      else d.setBit Reg.tilestat 9 := by
  rw [Chip.loadCheckDone, hup, hbusy, show Nat.min 8192 _ = _ from Nat.min_eq_right hlen]
  rfl

/-- The same at the tile itself. -/
theorem tile_loadCheckDone {t : Nat} (ht : t < c.tiles.length) (hup : c.up .hub = true)
    (hbusy : (c.tile t).loadBusy = true) (hlen : c.rf (Reg.tnPlen t) 0 14 ≤ 8192) :
    (c.loadCheckDone t).tile t =
      { (c.tile t).checked (c.rf (Reg.tnPlen t) 0 14) (c.programOk t) with
        ready := c.programOk t &&
          ((c.tile t).ready || decide (c.fo.wcs ≤ 4 * (c.tg.chord - c.tg.updl))) } := by
  have hchecked := Chip.tile_modTile c t (fun T => T.checked (c.rf (Reg.tnPlen t) 0 14) (c.programOk t)) ht
  have hlength : t < (c.modTile t fun T => T.checked (c.rf (Reg.tnPlen t) 0 14) (c.programOk t)).tiles.length := by
    simpa [Chip.modTile] using ht
  rw [loadCheckDone_busy hup hbusy hlen]
  dsimp only
  by_cases hok : c.programOk t = true
  · by_cases hfits : c.fo.wcs ≤ 4 * (c.tg.chord - c.tg.updl)
    · rw [if_pos hok, if_pos hfits, Chip.tile_modTile _ _ _ hlength, hchecked, hok, decide_eq_true hfits, Bool.or_true]
      rfl
    · rw [if_pos hok, if_neg hfits, hchecked, hok, decide_eq_false hfits, Bool.or_false, Bool.true_and]
      simp [Tile.checked]
  · rw [if_neg hok, setBit_tile, hchecked, Bool.eq_false_iff.mpr hok]
    simp [Tile.checked]

/-- Hardware's check of the new active tile's mirror region is kept. -/
theorem mirrorCheck_pending (hup : c.up .hub = true) (hfo : c.fo.fo = .takeover) (hrun : c.fo.firstRun = true)
    (hnone : c.fo.mirrorOk = none) :
    c.mirrorCheck = { c with fo.mirrorOk := some (c.mirrorMatches c.fo.act.val) } := by
  simp [Chip.mirrorCheck, hup, hfo, hrun, hnone]

/-! What stopping LOOP's items and answering a failure leave alone. -/

/-- The tiles, the failover controller and the power state. -/
def Chip.standing (c : Chip) : List Tile × Failover × Power := (c.tiles, c.fo, c.pwr)

theorem putBytes_standing (c : Chip) (a v n : Nat) : (c.putBytes a v n).standing = c.standing := by
  induction n generalizing c a v with
  | zero => rfl
  | succ n ih => exact ih _ _ _

theorem capStore_standing (c : Chip) (p : Word × Word) : (c.capStore p).standing = c.standing := by
  have hstore : ∀ a, (if c.up .sup then (c.putBytes a p.1.toNat 4).putBytes (a + 4) p.2.toNat 4 else c).standing =
      c.standing := fun a =>
    ite_keeps Chip.standing ((putBytes_standing _ _ _ _).trans (putBytes_standing c _ _ _)) rfl
  unfold Chip.capStore
  refine Eq.trans (ite_keeps Chip.standing rfl ?_) (hstore _)
  exact ite_keeps Chip.standing rfl (ite_keeps Chip.standing rfl rfl)

theorem loopDiscard_standing (c : Chip) : c.loopDiscard.standing = c.standing :=
  ite_keeps Chip.standing rfl (ite_keeps Chip.standing (capStore_standing c _) rfl)

theorem ageFailure_standing (c : Chip) : c.ageFailure.standing = c.standing :=
  ite_keeps Chip.standing rfl (ite_keeps Chip.standing rfl rfl)

theorem captureTakeover_standing (c : Chip) : c.captureTakeover.standing = c.standing :=
  ite_keeps Chip.standing rfl rfl

/-! A tile's failure (R291, R292). -/

/-- A tile whose failure has been recognised. -/
def Tile.stopped (T : Tile) (cause : Nat) : Tile :=
  { T with running := false, doneTick := none, failed := some cause, shadow := [] }

/-- Recognising a failure stops the tile and records the cause; the rest of the standing stays. -/
theorem tileFail_standing (c : Chip) (t cause : Nat) : (c.tileFail t cause).standing =
    ((c.modTile t fun T => T.stopped cause).tiles, { c.fo with lastCause := cause }, c.pwr) := by
  unfold Chip.tileFail
  dsimp only
  rw [ageFailure_standing, loopDiscard_standing]
  rfl

/-- The failed tile. -/
theorem tile_tileFail {t : Nat} (ht : t < c.tiles.length) (cause : Nat) :
    (c.tileFail t cause).tile t = (c.tile t).stopped cause :=
  (congrArg (fun x => x.1.getD t {}) (tileFail_standing c t cause)).trans (Chip.tile_modTile c t _ ht)

/-- A tile's failure leaves the other tile. -/
theorem tile_tileFail_ne (c : Chip) {t k : Nat} (hk : k ≠ t) (cause : Nat) :
    (c.tileFail t cause).tile k = c.tile k :=
  (congrArg (fun x => x.1.getD k {}) (tileFail_standing c t cause)).trans (Chip.tile_modTile_ne c t k _ hk)

theorem fo_tileFail (c : Chip) (t cause : Nat) : (c.tileFail t cause).fo = { c.fo with lastCause := cause } :=
  congrArg (·.2.1) (tileFail_standing c t cause)

/-- A check that fails on a running tile from the uplink deadline to the chord is that tile's failure. -/
theorem selfDiagnosis_running {t : Nat} (hup : c.up .hub = true) (hrun : (c.tile t).running = true)
    (hinst : c.tg.instant = .deadline) (cause : Nat) : c.selfDiagnosis t cause = c.tileFail t cause := by
  rw [Chip.selfDiagnosis, hup, hrun, hinst]
  rfl

/-! The chord of a failed period (R294, R297, R302). -/

theorem otherTile_ne : ∀ t : Fin 2, otherTile t.val ≠ t.val := by decide

theorem ofNat_otherTile : ∀ t : Fin 2, Fin.ofNat 2 (otherTile t.val) = 1 - t := by decide

/-- A reset tile is as it leaves reset. -/
theorem tile_tileReset {t : Nat} (ht : t < c.tiles.length) : (c.tileReset t).tile t = {} := by
  simp [Chip.tileReset, Chip.raise, Chip.tile, List.getD_eq_getElem?_getD, ht]

/-- A tile's reset leaves the other tile. -/
theorem tile_tileReset_ne {t k : Nat} (hk : k ≠ t) : (c.tileReset t).tile k = c.tile k := by
  simp [Chip.tileReset, Chip.raise, Chip.tile, List.getD_eq_getElem?_getD, Ne.symm hk]

/-- A reset tile's domain is held. -/
theorem up_of_tileReset {d : Chip} {t : Nat} (h : d.pwr = (c.tileReset t).pwr) : d.up (tileDom t) = false := by
  have hheld : ∀ f : DomainFlags, (f.set (tileDom t) true).get (tileDom t) = true := fun f => by
    cases tileDom t <;> rfl
  rw [Chip.up, h]
  show (_ && !(c.pwr.held.set (tileDom t) true).get (tileDom t)) = false
  rw [hheld, Bool.not_true, Bool.and_false]

/-- A takeover makes the other tile the active one and takes its standby standing; power stays. -/
theorem takeover_standing (c : Chip) (t : Nat) : (c.takeover t).standing =
    ((c.modTile (otherTile t) fun T => { T with sby := false }).tiles,
      { c.fo with act := Fin.ofNat 2 (otherTile t), fo := .takeover, consec := 0, firstRun := true, mirrorOk := none },
      c.pwr) := by
  show (Chip.captureTakeover _).standing = _
  rw [captureTakeover_standing]
  rfl

theorem fo_takeover (c : Chip) (t : Nat) : (c.takeover t).fo =
    { c.fo with act := Fin.ofNat 2 (otherTile t), fo := .takeover, consec := 0, firstRun := true, mirrorOk := none } :=
  congrArg (·.2.1) (takeover_standing c t)

theorem pwr_takeover (c : Chip) (t : Nat) : (c.takeover t).pwr = c.pwr :=
  congrArg (·.2.2) (takeover_standing c t)

/-- A takeover leaves the tile that it leaves. -/
theorem tile_takeover (c : Chip) {t : Nat} (ht : otherTile t ≠ t) : (c.takeover t).tile t = c.tile t :=
  (congrArg (fun x => x.1.getD t {}) (takeover_standing c t)).trans (Chip.tile_modTile_ne c _ t _ ht.symm)

/-- A failed period in DUAL with a standby-ready tile: the failed tile is reset and the other takes over. -/
theorem chordFailed_takeover {t : Nat} (ht : otherTile t ≠ t) (hfo : c.fo.fo = .dual)
    (hsby : (c.tile (otherTile t)).sby = true) :
    c.chordFailed t = ((c.tileReset t).count Reg.failcnt 0 16 1).takeover t := by
  have hsby' : (((c.tileReset t).count Reg.failcnt 0 16 1).tile (otherTile t)).sby = true :=
    (congrArg Tile.sby (tile_tileReset_ne ht)).trans hsby
  rw [Chip.chordFailed, hfo]
  exact if_pos hsby'

/-- A failed period in DUAL without one: the failed tile is reset and the controller holds, with event 40. -/
theorem chordFailed_hold {t : Nat} (ht : otherTile t ≠ t) (hfo : c.fo.fo = .dual)
    (hsby : (c.tile (otherTile t)).sby = false) :
    c.chordFailed t =
      ((((c.tileReset t).count Reg.failcnt 0 16 1).count Reg.failcnt 16 16 1).enterHold).raise 40 := by
  have hsby' : ¬(((c.tileReset t).count Reg.failcnt 0 16 1).tile (otherTile t)).sby = true :=
    Bool.eq_false_iff.mp ((congrArg Tile.sby (tile_tileReset_ne ht)).trans hsby)
  rw [Chip.chordFailed, hfo]
  exact if_neg hsby'

end Sys2Proof.Machine
end

section
/-! CERTIFICATE. The statement of chapter 9 on the tiles and the takeover. -/

namespace Sys2Proof.Certificates

open Sys2Proof.Machine Sys2Proof.Claims

/-- Settles O26: the tile commands and the recognition of a failure by what they do before the command's end, which
leaves tiles and controller; the chord of a failed period by what a reset and a takeover do to both. -/
theorem tilesAndTakeover : Obligations.tiles_and_takeover := by
  unfold Obligations.tiles_and_takeover
  refine ⟨fun s m t hinv => ⟨fun hg hfo => ?swapDual, fun hg hfo => ?swapSingle, fun hg hfo => ?resumeHold,
      fun hg hup hbusy hfree => ?armed, fun hup hbusy hlen => ?loadChecked, fun hup hfo hrun hnone => ?mirrorChecked⟩,
    fun s t k i hinv hup hrun hinst hi => ?failureRecognised,
    fun c t hinv hfo => ⟨fun hsby => ?takenOver, fun hsby => ?held⟩⟩
  case swapDual =>
    refine ⟨_, does_write rfl hg (regWrite_swap_dual (by decide) (by decide) hfo), ?_, ?_⟩
    · rw [after_chip, settle_fo]; rfl
    · rw [after_chip, settle_answer]; rfl
  case swapSingle =>
    refine ⟨_, does_write rfl hg (regWrite_swap_refused (by decide) (by decide) (by rw [hfo]; decide)), ?_, ?_⟩
    · rw [after_chip, settle_fo]; exact plainWrite_fo _ _ _
    · exact bit_settle_ok_setBit (plainWrite_wf hinv.regs _ _) (by decide) (by decide)
  case resumeHold =>
    refine ⟨_, does_write rfl hg (regWrite_resume_hold (by decide) (by decide) hfo), ?_⟩
    rw [after_chip, settle_fo]; rfl
  case armed => exact does_write rfl hg ((regWrite_tnArm _ t 1).trans (armTile_idle hup hbusy hfree))
  case loadChecked =>
    have htile := tile_loadCheckDone (tile_lt hinv t) hup hbusy hlen
    refine ⟨_, rfl, ?_⟩
    rw [after_chip, settle_tile, htile]
    refine ⟨rfl, rfl, programOk_iff, fun hready => ?_⟩
    simp [Tile.checked, hready]
  case mirrorChecked => exact does_run rfl (mirrorCheck_pending hup hfo hrun hnone)
  case failureRecognised =>
    have hexec : exec i s = s.run fun c => c.selfDiagnosis t.val k.val := by
      rcases hi with rfl | ⟨rfl, rfl⟩ <;> rfl
    refine ⟨_, does_run hexec (selfDiagnosis_running hup hrun hinst k.val), ?_⟩
    rw [after_chip, settle_tile, settle_tile, settle_fo, tile_tileFail (tile_lt hinv t),
      tile_tileFail_ne _ (k := 1 - t.val) (otherTile_ne t), fo_tileFail]
    exact ⟨rfl, rfl, rfl, rfl, rfl⟩
  case takenOver =>
    rw [chordFailed_takeover (otherTile_ne t) hfo hsby, fo_takeover, tile_takeover _ (otherTile_ne t), pwr_takeover,
      ofNat_otherTile]
    exact ⟨rfl, rfl, rfl, rfl, tile_tileReset (tile_lt hinv t), rfl, up_of_tileReset (pwr_takeover _ _)⟩
  case held =>
    rw [chordFailed_hold (otherTile_ne t) hfo hsby]
    exact ⟨rfl, _, List.mem_append_right _ (List.mem_singleton.mpr rfl), rfl⟩

end Sys2Proof.Certificates
end

section
/-! SUPPORT. What passing time and a command's end leave of the gate and of the registers (R29, R446). -/

namespace Sys2Proof.Machine

/-- A command's end leaves the gate. -/
@[simp] theorem settle_gate (c : Chip) : c.settle.gate = c.gate := (congrArg Chip.gate (settle_still c) :)

/-- The gate and the register file. -/
def Chip.gateRegs (c : Chip) : Gate × List (Nat × Word) := (c.gate, c.regs)

/-- Beyond counting its ticks, passing time changes neither the gate nor a register. -/
theorem elapse_gateRegs (c : Chip) {k : Nat} (hk : k ≠ 0) : (c.elapse k).gateRegs = (c.pmonTicks k).gateRegs := by
  rw [Chip.elapse, if_neg hk]
  dsimp only
  repeat' split
  all_goals rfl

/-- Passing time leaves the gate. -/
@[simp] theorem elapseTick_gate (c : Chip) (t : Nat) : (c.elapseTick t).gate = c.gate := by
  rw [Chip.elapseTick]
  by_cases hk : t - c.tg.tick = 0
  · rw [Chip.elapse, if_pos hk]
  · exact (congrArg Prod.fst (elapse_gateRegs c hk)).trans (congrArg Chip.gate (pmonAdd_still c _ _) :)

/-- Passing time leaves every register below SEQ's block: PMON's alone change. -/
theorem Chip.LowRegs.elapse {base c : Chip} (h : base.LowRegs c) (k : Nat) : base.LowRegs (c.elapse k) := by
  by_cases hk : k = 0
  · rwa [Chip.elapse, if_pos hk]
  · exact (h.pmonAdd _ k).of_regs (congrArg Prod.snd (elapse_gateRegs c hk))

/-- So a register below SEQ's block reads the same after it. -/
theorem reg_elapseTick {c : Chip} (h : twf regReset 0 c.regs = true) {a : Nat} (ha : a < 0x40009000) (t : Nat) :
    (c.elapseTick t).reg a = c.reg a :=
  (Chip.LowRegs.elapse ⟨h, fun _ _ => rfl⟩ _).val a ha

/-- Setting a flag leaves every other register. -/
theorem reg_setBit_ne {c : Chip} (h : twf regReset 0 c.regs = true) {a b : Nat} (hb : b ≠ a) (i : Nat) :
    (c.setBit a i).reg b = c.reg b := by
  rw [Chip.setBit, Chip.putFld, reg_setReg h, if_neg hb]

/-- A flag that stands stays when another of its register is set. -/
theorem getLsbD_put_of_getLsbD {w : Word} {j : Nat} (i : Nat) (h : w.getLsbD j = true) :
    (put w i 1 1).getLsbD j = true := by
  have hfld : fld w i 1 = (w.getLsbD i).toNat := (Nat.toNat_testBit w.toNat i).symm
  cases hi : w.getLsbD i with
  | true =>
    have hle : 2 ^ i ≤ w.toNat := Nat.ge_two_pow_of_testBit hi
    have hsame : put w i 1 1 = w := by simp [put, hfld, hi, Nat.sub_add_cancel hle]
    rwa [hsame]
  | false =>
    have hadd : put w i 1 1 = w ||| BitVec.twoPow 32 i := by
      rw [← BitVec.add_eq_or_of_and_eq_zero _ _ (by simp [BitVec.and_twoPow, hi])]
      exact BitVec.eq_of_toNat_eq (by simp [put, hfld, hi])
    rw [hadd, BitVec.getLsbD_or, h, Bool.true_or]

end Sys2Proof.Machine
end

section
/-! SUPPORT. Recognising a cause (R334, R342, Table 10.4): what the gate becomes, and that of the registers CMPSTAT's
flags alone rise. -/

namespace Sys2Proof.Machine

/-! The shelf's own transition leaves the gate and the registers. -/

theorem raiseIf_gateRegs (c : Chip) (b : Bool) (e k : Nat) : (c.raiseIf b e k).gateRegs = c.gateRegs :=
  ite_keeps Chip.gateRegs rfl rfl

theorem shelfEnter_gateRegs (c : Chip) (d : ShelfState) (e : Nat) : (c.shelfEnter d e).gateRegs = c.gateRegs := by
  refine ite_keeps Chip.gateRegs rfl ?_
  rw [raiseIf_gateRegs, raiseIf_gateRegs]
  rfl

theorem shelfAsk_gateRegs (c : Chip) (d : ShelfState) (e : Nat) : (c.shelfAsk d e).gateRegs = c.gateRegs := by
  refine ite_keeps Chip.gateRegs (shelfEnter_gateRegs c d e) ?_
  split
  · exact ite_keeps Chip.gateRegs rfl rfl
  · rfl

theorem shelfFault_gateRegs (c : Chip) (e : Nat) : (c.shelfFault e).gateRegs = c.gateRegs := by
  unfold Chip.shelfFault
  split
  any_goals rfl
  exact ite_keeps Chip.gateRegs rfl (shelfAsk_gateRegs _ _ _)

/-! The registers. -/

/-- The register file is canonical, and differs from that of `base` in flags of CMPSTAT that rose, if at all. -/
structure Chip.TripRegs (base c : Chip) : Prop where
  wf    : twf regReset 0 c.regs = true
  val   : ∀ a ≠ Reg.cmpstat, c.reg a = base.reg a
  rises : ∀ i, base.bit Reg.cmpstat i = true → c.bit Reg.cmpstat i = true

namespace Chip.TripRegs

variable {base c : Chip}

theorem refl (h : twf regReset 0 c.regs = true) : c.TripRegs c := ⟨h, fun _ _ => rfl, fun _ h => h⟩

/-- What leaves the register file leaves this. -/
theorem of_regs {d : Chip} (h : base.TripRegs c) (e : d.regs = c.regs) : base.TripRegs d := by
  have hreg : ∀ a, d.reg a = c.reg a := fun a => congrArg (fun r => (tget r a).getD (regReset a)) e
  exact ⟨e ▸ h.wf, fun a ha => (hreg a).trans (h.val a ha),
    fun i hi => (congrArg (·.getLsbD i) (hreg _)).trans (h.rises i hi)⟩

/-- A flag of CMPSTAT rises. -/
theorem setBit (h : base.TripRegs c) (i : Nat) : base.TripRegs (c.setBit Reg.cmpstat i) := by
  refine ⟨setReg_wf h.wf _ _, fun a ha => ?_, fun k hk => ?_⟩
  · rw [reg_setBit_ne h.wf ha, h.val a ha]
  · rw [Chip.bit, Chip.setBit, Chip.putFld, reg_setReg h.wf, if_pos rfl]
    exact getLsbD_put_of_getLsbD i (h.rises k hk)

theorem ite {p : Prop} [Decidable p] {d e : Chip} (hd : base.TripRegs d) (he : base.TripRegs e) :
    base.TripRegs (if p then d else e) := by
  split
  · exact hd
  · exact he

theorem markTripped (h : base.TripRegs c) : base.TripRegs c.markTripped :=
  List.foldlRecOn _ _ h fun _ hd n _ => ite (hd.setBit (8 + n)) hd

end Chip.TripRegs

variable {c : Chip}

/-! A trip. -/

/-- The bit of one cause. -/
theorem getLsbD_one_shiftLeft {i k : Nat} (hk : k < 13) : (1#13 <<< i).getLsbD k = decide (k = i) := by
  rw [← BitVec.twoPow_eq, BitVec.getLsbD_twoPow]
  grind

/-- The mask of a list of causes has the bit of each. -/
theorem getLsbD_foldl_or (l : List Nat) (m : BitVec 13) {k : Nat} (hk : k < 13) :
    (l.foldl (fun m i => m ||| (1#13 <<< i)) m).getLsbD k = (m.getLsbD k || decide (k ∈ l)) := by
  induction l generalizing m with
  | nil => simp
  | cons i l ih =>
    rw [List.foldl_cons, ih, BitVec.getLsbD_or, getLsbD_one_shiftLeft hk, Bool.or_assoc]
    simp

/-- The causes that a test finds: those tested in this state and not yet set (R334). -/
def Chip.newCauses (c : Chip) (l : List Nat) : List Nat :=
  l.filter fun i => causeTested c.gate.gst i && !c.gate.cause.getLsbD i

/-- The causes that are recognised with those found: a trip in RAMP adds cause 8 (R334; log 32). -/
def Chip.withRampCause (c : Chip) (new : List Nat) : List Nat :=
  if c.gate.gst = .ramp && !new.contains 8 && !c.gate.cause.getLsbD 8 then new ++ [8] else new

/-- The causes' bits set, their events raised, and CMPSTAT's flags where CMP is one of them. -/
def Chip.recordCauses (c : Chip) (new : List Nat) : Chip :=
  let mask := new.foldl (fun m i => m ||| (1#13 <<< i)) 0
  let d := { c with gate.cause := c.gate.cause ||| mask,
                    gate.tripTick := if c.gate.cause = 0 then c.tg.tick else c.gate.tripTick }
  let d := (new.map causeEvent).foldl (fun d e => d.raise e) d
  if new.contains 0 then d.markTripped else d

/-- Where a recognised cause leads from a state (Table 10.3; log 32). -/
def Chip.tripFrom (c : Chip) (g : Gst) : Chip :=
  match g with
  | .open_ => c
  | .check => c.gateGo .open_
  | .tripped => c
  | _ => c.gateGo .tripped

/-- A test that finds no new cause does nothing. -/
theorem gateTrip_none {l : List Nat} (h : c.newCauses l = []) : c.gateTrip l = c := by
  rw [Chip.gateTrip]
  exact if_pos (List.isEmpty_iff.mpr h)

/-- A test that finds one records the causes, leaves the state it is in, and asks the shelf to latch. -/
theorem gateTrip_some {l : List Nat} (h : c.newCauses l ≠ []) :
    c.gateTrip l = ((c.recordCauses (c.withRampCause (c.newCauses l))).tripFrom c.gate.gst).shelfFault
      (((c.withRampCause (c.newCauses l)).map causeEvent).foldl Nat.min 255) := by
  rw [Chip.gateTrip]
  exact if_neg (by rwa [List.isEmpty_iff])

theorem markTripped_gate (c : Chip) : c.markTripped.gate = c.gate :=
  foldl_keeps Chip.gate _ _ c fun _ _ => ite_keeps Chip.gate rfl rfl

/-- Raising events leaves the gate and the registers. -/
theorem foldl_raise_gateRegs (l : List Nat) (c : Chip) : (l.foldl (fun c e => c.raise e) c).gateRegs = c.gateRegs :=
  foldl_keeps Chip.gateRegs _ l c fun _ _ => rfl

/-- Recording causes changes of the gate their bits and the tick alone. -/
theorem recordCauses_gate (c : Chip) (new : List Nat) :
    (c.recordCauses new).gate = { c.gate with
      cause := c.gate.cause ||| new.foldl (fun m i => m ||| (1#13 <<< i)) 0
      tripTick := if c.gate.cause = 0 then c.tg.tick else c.gate.tripTick } :=
  (ite_keeps Chip.gate (markTripped_gate _) rfl).trans (congrArg Prod.fst (foldl_raise_gateRegs _ _))

/-- Recording causes changes of the registers CMPSTAT's flags alone. -/
theorem Chip.TripRegs.recordCauses {base : Chip} (h : base.TripRegs c) (new : List Nat) :
    base.TripRegs (c.recordCauses new) := by
  refine ite (markTripped ?_) ?_
  all_goals exact h.of_regs (congrArg Prod.snd (foldl_raise_gateRegs _ _))

/-- A test of causes changes of the registers CMPSTAT's flags alone. -/
theorem Chip.TripRegs.gateTrip {base : Chip} (h : base.TripRegs c) (l : List Nat) : base.TripRegs (c.gateTrip l) := by
  by_cases hnew : c.newCauses l = []
  · rwa [gateTrip_none hnew]
  · have hgo : ∀ d : Chip, (d.tripFrom c.gate.gst).regs = d.regs := fun d => by cases c.gate.gst <;> rfl
    rw [gateTrip_some hnew]
    exact (h.recordCauses _).of_regs ((congrArg Prod.snd (shelfFault_gateRegs _ _)).trans (hgo _))

/-- The states that a trip leaves for TRIPPED (Table 10.3). -/
def Gst.trips : Gst → Bool
  | .open_ | .check | .tripped => false
  | _ => true

theorem tripFrom_of_trips {g : Gst} (h : g.trips = true) (c : Chip) : c.tripFrom g = c.gateGo .tripped := by
  cases g with
  | open_ | check | tripped => cases h
  | _ => rfl

/-- In `d` the gate is TRIPPED with the bit of cause `k`, and its contactor drive as it was in `c`; the short test of the
state it has left is forgotten (R332, R334). -/
structure Chip.TrippedBy (c : Chip) (k : Nat) (d : Chip) : Prop where
  gst   : d.gate.gst = .tripped
  cause : d.gate.cause.getLsbD k = true
  drive : d.gate.conHigh = c.gate.conOut
  fresh : d.gate.pretDone = false

/-- Of the part before, only its contactor drive counts. -/
theorem Chip.TrippedBy.of_conOut {b d : Chip} {k : Nat} (h : c.TrippedBy k d) (e : c.gate.conOut = b.gate.conOut) :
    b.TrippedBy k d :=
  ⟨h.gst, h.cause, h.drive.trans e, h.fresh⟩

/-- Where no cause is set yet, one tested in a state that a trip leaves trips the gate. -/
theorem trippedBy_gateTrip {l : List Nat} {k : Nat} (hk : k < 13) (hmem : k ∈ l) (hstate : c.gate.gst.trips = true)
    (htest : causeTested c.gate.gst k = true) (hzero : c.gate.cause = 0) :
    c.TrippedBy k (c.gateTrip l) := by
  have hunset : c.gate.cause.getLsbD k = false := by rw [hzero]; exact BitVec.getLsbD_zero
  have hfound : k ∈ c.newCauses l := List.mem_filter.mpr ⟨hmem, by rw [htest, hunset]; rfl⟩
  have hset : k ∈ c.withRampCause (c.newCauses l) := by
    unfold Chip.withRampCause
    split
    · exact List.mem_append_left _ hfound
    · exact hfound
  rw [gateTrip_some (List.ne_nil_of_mem hfound), tripFrom_of_trips hstate]
  generalize c.withRampCause (c.newCauses l) = new at hset ⊢
  have hgate : ∀ e, (((c.recordCauses new).gateGo .tripped).shelfFault e).gate =
      ((c.recordCauses new).gateGo .tripped).gate := fun e => congrArg Prod.fst (shelfFault_gateRegs _ e)
  have hcause : (c.recordCauses new).gate.cause.getLsbD k = true := by
    rw [recordCauses_gate, BitVec.getLsbD_or, getLsbD_foldl_or _ _ hk, decide_eq_true hset, Bool.or_true, Bool.or_true]
  have hdrive : (c.recordCauses new).gate.conOut = c.gate.conOut := by rw [recordCauses_gate]; rfl
  constructor <;> rw [hgate]
  · rfl
  · exact hcause
  · exact hdrive
  · rfl

/-- The same of a test of every standing condition. -/
theorem trippedBy_gateTest {k : Nat} (hk : k < 13) (hlevel : k ∈ c.gateLevels) (hstate : c.gate.gst.trips = true)
    (htest : causeTested c.gate.gst k = true) (hzero : c.gate.cause = 0) : c.TrippedBy k c.gateTest :=
  trippedBy_gateTrip hk hlevel hstate htest hzero

/-- The same of one cause whose time has passed. -/
theorem trippedBy_elapsed {k : Nat} (t : Nat) (hk : k < 13) (hstate : c.gate.gst.trips = true)
    (htest : causeTested c.gate.gst k = true) (hzero : c.gate.cause = 0) :
    c.TrippedBy k ((c.elapseTick t).gateTrip [k]) := by
  have hgate := elapseTick_gate c t
  have htrip := trippedBy_gateTrip (c := c.elapseTick t) hk (List.mem_singleton.mpr rfl) (hgate ▸ hstate)
    (hgate ▸ htest) (hgate ▸ hzero)
  exact htrip.of_conOut (congrArg Gate.conOut hgate)

/-- A test of every standing condition changes of the registers CMPSTAT's flags alone. -/
theorem Chip.TripRegs.gateTest {base : Chip} (h : base.TripRegs c) : base.TripRegs c.gateTest := h.gateTrip _

/-! The levels that a test finds. -/

/-- A comparator with ACT = 1 that is qualified outside is a level of cause CMP. -/
theorem mem_gateLevels_cmp {n : Nat} (hn : n < 8) (hact : c.bit (Reg.cmpCfg n) 2 = true)
    (hout : c.gate.cmpOut.getD n false = true) : 0 ∈ c.gateLevels := by
  have htrips : c.cmpTrips = true := List.any_eq_true.mpr ⟨n, List.mem_range.mpr hn, by rw [hact, hout]; rfl⟩
  simp [Chip.gateLevels, htrips]

/-- EXT_TRIP# low is a level of cause EXT where EXTACT = 1. -/
theorem mem_gateLevels_ext (hact : c.bit Reg.gcfg 2 = true) (hlow : c.inLevel 0 = false) : 1 ∈ c.gateLevels := by
  have htrips : c.extTrips = true := by rw [Chip.extTrips, hact, hlow]; rfl
  simp [Chip.gateLevels, htrips]

/-- GATE_FLT# low is a level of cause DRV. -/
theorem mem_gateLevels_drv (hlow : c.pins.gateFltLow = true) : 11 ∈ c.gateLevels := by
  simp [Chip.gateLevels, hlow]

end Sys2Proof.Machine
end

section
/-! SUPPORT. The protection causes that are events of their own, each with its test (R333 to R335, R342, Table 10.4). -/

namespace Sys2Proof.Machine

open Sys2Proof.Claims

variable {c : Chip}

/-- A command whose effect trips the gate leaves it tripped. -/
theorem trips_of_run {s : State} {i : Instr} {f : Chip → Chip} {c d : Chip} {k : Nat} (hi : exec i s = s.run f)
    (hf : f s.chip = d) (h : c.TrippedBy k d) :
    ∃ t, exec i s = .next t ∧ t.chip.gate.gst = .tripped ∧ t.chip.gate.cause.getLsbD k = true := by
  refine ⟨_, does_run hi hf, ?_, ?_⟩ <;> rw [after_chip, settle_gate]
  · exact h.gst
  · exact h.cause

/-! Pre-charge and ramp. -/

theorem pretElapsed_prechg (hup : c.up .afe = true) (hgst : c.gate.gst = .prechg) (hpre : c.gate.pretDone = false) :
    c.pretElapsed = (c.elapseTick
      (c.gate.since + Nat.min (c.rf Reg.precfg 0 16) (c.rf Reg.precfg 16 16) * 100000)).shortTest := by
  rw [Chip.pretElapsed, hup, hgst, hpre]
  rfl

/-- A short test that passes is done, and no more. -/
theorem shortTest_passed (h : c.gate.ishAbs < (c.reg Reg.preshi).toNat) :
    c.shortTest = { c with gate.pretDone := true } :=
  if_neg (Nat.not_le.mpr h)

/-- A short test that finds a short trips the gate. -/
theorem shortTest_failed (hgst : c.gate.gst = .prechg) (hzero : c.gate.cause = 0)
    (h : (c.reg Reg.preshi).toNat ≤ c.gate.ishAbs) : c.TrippedBy 7 c.shortTest := by
  have htrip : Chip.TrippedBy { c with gate.pretDone := true } 7 _ :=
    trippedBy_gateTrip (l := [7]) (by decide) (List.mem_singleton.mpr rfl) (congrArg Gst.trips hgst)
      (congrArg (causeTested · 7) hgst) hzero
  rw [Chip.shortTest]
  exact (if_pos (show (c.reg Reg.preshi).toNat ≤ c.gate.ishAbs from h)).symm ▸ htrip.of_conOut rfl

/-- While the switch node disagrees, RAMP goes on. -/
theorem rampDone_disagrees (h : c.agrees c.gate.vrack c.gate.vsw = false) : c.rampDone = c := by
  rw [Chip.rampDone, h, Bool.and_false]
  rfl

/-- The ramp's time limit in RAMP, the switch node not agreeing, is cause 8. -/
theorem ramptmoElapsed_disagrees (hregs : twf regReset 0 c.regs = true) (hup : c.up .afe = true)
    (hgst : c.gate.gst = .ramp) (h : c.agrees c.gate.vrack c.gate.vsw = false) :
    c.ramptmoElapsed = (c.elapseTick (c.gate.since + c.rf Reg.rampcfg 16 16 * 100)).gateTrip [8] := by
  have hdone := rampDone_disagrees (c := c.elapseTick (c.gate.since + c.rf Reg.rampcfg 16 16 * 100)) (by
    rw [elapseTick_gate, Chip.agrees, reg_elapseTick hregs (by decide)]
    exact h)
  rw [Chip.ramptmoElapsed, hup, hgst]
  dsimp only
  rw [hdone, elapseTick_gate, hgst]
  rfl

/-! Contactors, sense and the gate driver. -/

theorem contElapsed_differs {i t : Nat} (hup : c.up .afe = true) (hbad : c.gate.conBad.getD i none = some t) :
    c.contElapsed i = (c.elapseTick (t + c.rf Reg.concfg 0 16 * 100000)).gateTrip [10] := by
  rw [Chip.contElapsed, hup, hbad]

theorem senseTimeout_connected (hup : c.up .afe = true) (hgst : c.gate.gst ≠ .open_) :
    ∃ t, c.senseTimeout = (c.elapseTick t).gateTrip [12] := by
  refine ⟨_, if_neg ?_⟩
  simp [hup, hgst]

theorem gateFlt_low (hup : c.up .afe = true) : c.gateFlt true = ({ c with pins.gateFltLow := true } : Chip).gateTest :=
  if_pos hup

/-! Comparators. -/

/-- A comparator whose qualified output goes outside. -/
def Chip.cmpOutside (c : Chip) (n : Nat) : Chip := { c with gate.cmpOut := c.gate.cmpOut.set n true }

/-- With ACT = 1 it sets TRIPD and is tested as a cause; with ACT = 0 it sets its flag of the watch alone. -/
theorem cmpQualified_outside {n : Nat} (hup : c.up .afe = true) (hmode : c.rf (Reg.cmpCfg n) 0 2 ≠ 0) :
    c.cmpQualified n true =
      if c.bit (Reg.cmpCfg n) 2 then ((c.cmpOutside n).setBit Reg.cmpstat (8 + n)).gateTest
      else (c.cmpOutside n).setBit Reg.cmpstat (16 + n) := by
  have hout : (true && decide (c.rf (Reg.cmpCfg n) 0 2 ≠ 0)) = true := decide_eq_true hmode
  rw [Chip.cmpQualified, hup, hout]
  rfl

/-- A comparator with ACT = 1 that goes outside in CLOSED trips the gate, and its TRIPD stands. -/
theorem cmpOutside_trips {n : Nat} (hn : n < 8) (hregs : twf regReset 0 c.regs = true)
    (hact : c.bit (Reg.cmpCfg n) 2 = true) (hlen : c.gate.cmpOut.length = 8) (hgst : c.gate.gst = .closed)
    (hzero : c.gate.cause = 0) :
    let d := ((c.cmpOutside n).setBit Reg.cmpstat (8 + n)).gateTest
    c.TrippedBy 0 d ∧ twf regReset 0 d.regs = true ∧ d.bit Reg.cmpstat (8 + n) = true := by
  have hregs' : twf regReset 0 (c.cmpOutside n).regs = true := hregs
  have hother : Reg.cmpCfg n ≠ Reg.cmpstat := by simp only [Reg.cmpCfg, Reg.cmpstat]; omega
  have hlevel : 0 ∈ ((c.cmpOutside n).setBit Reg.cmpstat (8 + n)).gateLevels := by
    refine mem_gateLevels_cmp hn ?_ ?_
    · rw [Chip.bit, reg_setBit_ne hregs' hother]
      exact hact
    · show (c.gate.cmpOut.set n true).getD n false = true
      simp [List.getD_eq_getElem?_getD, hlen, hn]
  have htrip : ((c.cmpOutside n).setBit Reg.cmpstat (8 + n)).TrippedBy 0 _ :=
    trippedBy_gateTest (by decide) hlevel (congrArg Gst.trips hgst) (congrArg (causeTested · 0) hgst) hzero
  have htest : ((c.cmpOutside n).setBit Reg.cmpstat (8 + n)).TripRegs _ :=
    (Chip.TripRegs.refl (setReg_wf hregs' _ _)).gateTest
  exact ⟨htrip.of_conOut rfl, htest.wf, htest.rises _ (bit_setBit hregs' _ (by omega))⟩

/-! EXT_TRIP#. -/

/-- The changed input. -/
theorem input_modInput {i : Nat} (h : i < c.inputs.length) (f : Input → Input) :
    (c.modInput i f).input i = f (c.input i) := by
  simp [Chip.input, Chip.modInput, List.getD_eq_getElem?_getD, h]

/-- Without a limit of edges, counting them declares nothing. -/
theorem countEdges_of_tmax_zero {i : Nat} (h : c.tmax i = 0) (n : Nat) :
    c.countEdges i n = c.modInput i fun x => { x with edges := x.edges + n } := by
  refine if_neg ?_
  rw [show (c.modInput i fun x => { x with edges := x.edges + n }).tmax i = 0 from h]
  simp

/-- A stable input whose edges are not limited takes its new level: nothing else of the part changes. -/
theorem qualify_stable {i : Nat} (hi : i < c.inputs.length) (hused : inputUsed i = true) (hup : c.up .ifc = true)
    (htmax : c.tmax i = 0) (hstable : (c.input i).unstable = false) (level : Bool) (n : Nat) :
    (∃ l, c.qualify i level n = { c with inputs := l }) ∧ (c.qualify i level n).inLevel i = level := by
  have hlen : i < (c.modInput i fun x => { x with edges := x.edges + n }).inputs.length := by
    simpa [Chip.modInput] using hi
  rw [Input.unstable, Bool.or_eq_false_iff] at hstable
  obtain ⟨htog, hstk⟩ := hstable
  rw [Chip.qualify, if_neg (by simp [hused, hup]), countEdges_of_tmax_zero htmax]
  refine ⟨⟨_, rfl⟩, ?_⟩
  rw [Chip.inLevel, input_modInput hlen, input_modInput hi]
  simp [Input.unstable, htog, hstk]

/-- EXT_TRIP# qualified low while it was high and EXTACT = 1 is tested as a cause. -/
theorem inputQualified_extTrip (hinv : c.Inv) (hafe : c.up .afe = true) (hifc : c.up .ifc = true)
    (hact : c.bit Reg.gcfg 2 = true) (htmax : c.tmax 0 = 0) (hstable : (c.input 0).unstable = false)
    (hhigh : (c.input 0).level = true) :
    ∃ l, c.inputQualified 0 false 1 = ({ c with inputs := l } : Chip).gateTest ∧
      ({ c with inputs := l } : Chip).inLevel 0 = false := by
  obtain ⟨⟨l, hl⟩, hlow⟩ := qualify_stable (by rw [hinv.inputs]; decide) (by decide) hifc htmax hstable false 1
  have hwas : c.inLevel 0 = true := by rw [Chip.inLevel, hstable]; exact hhigh
  rw [hl] at hlow
  refine ⟨l, ?_, hlow⟩
  rw [Chip.inputQualified, hl, Chip.inputHook, hwas, hlow, Chip.extLow]
  show (if (!c.up .afe) = true then _ else if c.bit Reg.gcfg 2 = true then _ else _) = _
  rw [hafe, hact]
  rfl

end Sys2Proof.Machine
end

section
/-! SUPPORT. The writes of GATE's registers: CAUSECLR, the limits, ELDCMT and the comparators' words (R337, R341, R343,
R347). -/

namespace Sys2Proof.Machine

open Sys2Proof.Claims

variable {c : Chip}

/-- A write in the GATE block. -/
theorem regWrite_gateBlock (c : Chip) {a : Nat} (h : blockNo a = 7) (v : Word) : c.regWrite a v = writeGate c a v := by
  rw [Chip.regWrite, h]
  rfl

/-! CAUSECLR (R337). -/

theorem regWrite_causeclr (c : Chip) (v : Word) : c.regWrite Reg.causeclr v = c.causeClear v := rfl

/-- A list of causes that are cleared where `p` holds: the bit of each such cause is 0, every other stays. -/
theorem getLsbD_foldl_clear (p : Nat → Bool) (l : List Nat) (m : BitVec 13) {k : Nat} (hk : k < 13) :
    (l.foldl (fun m i => if p i then m &&& ~~~(1#13 <<< i) else m) m).getLsbD k =
      (m.getLsbD k && !(decide (k ∈ l) && p k)) := by
  induction l generalizing m with
  | nil => simp
  | cons i l ih =>
    have hstep : (if p i then m &&& ~~~(1#13 <<< i) else m).getLsbD k = (m.getLsbD k && !(decide (k = i) && p k)) := by
      rw [apply_ite (BitVec.getLsbD · k), BitVec.getLsbD_and, BitVec.getLsbD_not, getLsbD_one_shiftLeft hk]
      grind
    rw [List.foldl_cons, ih, hstep, Bool.and_assoc, ← Bool.not_or, ← Bool.and_or_distrib_right]
    simp

/-- In OPEN a write clears the causes written as ones whose condition is absent. -/
theorem getLsbD_causeClear (hgst : c.gate.gst = .open_) (v : Word) {k : Nat} (hk : k < 13) :
    (c.causeClear v).gate.cause.getLsbD k = (c.gate.cause.getLsbD k && !(v.getLsbD k && c.causeAbsent k)) := by
  rw [Chip.causeClear, if_neg fun hne => hne hgst]
  dsimp only
  rw [getLsbD_foldl_clear _ _ _ hk, decide_eq_true (List.mem_range.mpr hk), Bool.true_and]

/-- Outside OPEN a write does nothing. -/
theorem causeClear_ignored (hgst : c.gate.gst ≠ .open_) (v : Word) : c.causeClear v = c := if_pos hgst

/-- A write clears causes and leaves the gate's state. -/
theorem causeClear_gst (v : Word) : (c.causeClear v).gate.gst = c.gate.gst :=
  ite_keeps (·.gate.gst) rfl rfl

/-! The limits (R341). -/

/-- A limit as the fused value holds it. -/
def Chip.heldLimit (c : Chip) (r : LimitReg) (n : Nat) : Nat :=
  match r with
  | .ovlim => Nat.min n c.fovp
  | .uvlim => Nat.max n c.fuvp
  | .oclim => Nat.min n c.focp

/-- A limit stored as it is held, with FCLAMP and event 63 where that differs from what was written. -/
def Chip.storeLimit (c : Chip) (r : LimitReg) (v : Word) : Chip :=
  let d := c.setReg (limitAddr r) (word (c.heldLimit r v.toNat))
  if c.heldLimit r v.toNat = v.toNat then d else (d.setBit Reg.gstat 13).raise 63

/-- A write of a limit stores it, and tests every standing condition. -/
theorem regWrite_limit (c : Chip) (r : LimitReg) (v : Word) :
    c.regWrite (limitAddr r) v = (c.storeLimit r v).gateTest := by
  cases r <;> rfl

/-- The limits stand apart from the flags, and below SEQ's block. -/
theorem limitAddr_place (r : LimitReg) :
    limitAddr r ≠ Reg.gstat ∧ limitAddr r ≠ Reg.cmpstat ∧ limitAddr r < 0x40009000 := by
  cases r <;> decide

/-- What is stored: the limit held, FCLAMP where that differs, in a canonical register file. -/
theorem storeLimit_regs (hregs : twf regReset 0 c.regs = true) (r : LimitReg) (v : Word) :
    twf regReset 0 (c.storeLimit r v).regs = true ∧
      (c.storeLimit r v).reg (limitAddr r) = word (c.heldLimit r v.toNat) ∧
      (c.heldLimit r v.toNat ≠ v.toNat → (c.storeLimit r v).bit Reg.gstat 13 = true) := by
  have hset := setReg_wf hregs (limitAddr r) (word (c.heldLimit r v.toNat))
  have hread := (reg_setReg hregs (limitAddr r) _ (word (c.heldLimit r v.toNat))).trans (if_pos rfl)
  rw [Chip.storeLimit]
  split
  next hsame => exact ⟨hset, hread, fun hne => absurd hsame hne⟩
  next =>
    rw [Chip.raise_regs, Chip.bit, Chip.raise_reg, Chip.raise_reg, reg_setBit_ne hset (limitAddr_place r).1]
    exact ⟨setReg_wf hset _ _, hread, fun _ => bit_setBit hset Reg.gstat (by decide)⟩

/-- A granted write of a limit leaves its register held to the fused value, with FCLAMP where that differs. -/
theorem limitWrite_held {s : State} {m : Master} (r : LimitReg) {v : Word} (hinv : s.chip.Inv)
    (hg : MayWrite s m (limitAddr r)) :
    ∃ t, exec (.limitWrite m r v) s = .next t ∧ t.chip.reg (limitAddr r) = word (s.chip.heldLimit r v.toNat) ∧
      (s.chip.heldLimit r v.toNat ≠ v.toNat → t.chip.bit Reg.gstat 13 = true) := by
  obtain ⟨hstored, hlimit, hclamp⟩ := storeLimit_regs hinv.regs r v
  obtain ⟨-, hcmp, hlow⟩ := limitAddr_place r
  have htest := (Chip.TripRegs.refl hstored).gateTest
  have hread : ∀ a ≠ Reg.cmpstat, a < 0x40009000 →
      (ok (s.chip.storeLimit r v).gateTest).settle.reg a = (s.chip.storeLimit r v).reg a := fun a ha hlo =>
    (reg_settle (c := ok _) htest.wf hlo).trans (htest.val a ha)
  refine ⟨_, does_write rfl hg (regWrite_limit s.chip r v), ?_, fun hne => ?_⟩
  · exact (hread _ hcmp hlow).trans hlimit
  · exact (congrArg (BitVec.getLsbD · 13) (hread _ (by decide) (by decide))).trans (hclamp hne)

/-! ELDCMT (R347). -/

theorem regWrite_eldcmt (c : Chip) (v : Word) : c.regWrite Reg.eldcmt v = c.energyLoad v := rfl

/-- In OPEN a load of both directions takes the value of ELDHI and ELDLO. -/
theorem energyLoad_open (hgst : c.gate.gst = .open_) :
    c.energyLoad 3 = { c with
      gate := { c.gate with
        eout := (c.reg Reg.eldlo).toNat + 2 ^ 32 * (c.reg Reg.eldhi).toNat, eoutRes := 0
        ein := (c.reg Reg.eldlo).toNat + 2 ^ 32 * (c.reg Reg.eldhi).toNat, einRes := 0 } } := by
  rw [Chip.energyLoad, if_neg (by decide), if_neg fun hne => hne hgst]
  rfl

/-- Elsewhere it is refused with ELDREF. -/
theorem energyLoad_refused (hgst : c.gate.gst ≠ .open_) : c.energyLoad 3 = c.setBit Reg.gstat 19 := by
  rw [Chip.energyLoad, if_neg (by decide), if_pos hgst]

/-! The comparators' words (R343). -/

/-- The address of a comparator's word. -/
def cmpAddr (n : Fin 8) (w : CmpWord) : Nat := match w with | .cfg => Reg.cmpCfg n.val | .th => Reg.cmpTh n.val

/-- A write of a comparator's word reaches that comparator. -/
theorem regWrite_cmpAddr (c : Chip) (n : Fin 8) (w : CmpWord) (v : Word) :
    c.regWrite (cmpAddr n w) v = c.writeCmp n.val (cmpAddr n w) v := by
  have hplace : blockNo (cmpAddr n w) = 7 ∧ Reg.cmpCfg 0 ≤ cmpAddr n w ∧ cmpAddr n w < Reg.cmpCfg 8 ∧
      (cmpAddr n w - Reg.cmpCfg 0) / 8 = n.val := by
    cases w <;> simp only [blockNo, cmpAddr, Reg.cmpCfg, Reg.cmpTh] <;> omega
  obtain ⟨hblock, hlo, hhi, hindex⟩ := hplace
  have hne : ∀ b < Reg.cmpCfg 0, cmpAddr n w ≠ b := fun b hb => Nat.ne_of_gt (Nat.lt_of_lt_of_le hb hlo)
  rw [regWrite_gateBlock c hblock, writeGate, if_neg (hne _ (by decide)), if_neg (hne _ (by decide)),
    if_neg (hne _ (by decide)),
    if_neg (by simpa using ⟨⟨hne _ (by decide), hne _ (by decide)⟩, hne _ (by decide)⟩), if_neg (hne _ (by decide)),
    if_pos (by simp [hlo, hhi]), hindex]

/-- While the comparator acts and the gate is CLOSED, the write is refused with event 109. -/
theorem writeCmp_closed {n : Nat} (a : Nat) (v : Word) (hact : c.bit (Reg.cmpCfg n) 2 = true)
    (hgst : c.gate.gst = .closed) : c.writeCmp n a v = (c.setBit Reg.cmpstat 24).raise 109 := by
  rw [Chip.writeCmp]
  exact if_pos (by simp [hact, hgst])

/-- In OPEN a write that leaves MODE at 1 or 2 is stored. -/
theorem writeCmp_open {n : Fin 8} {w : CmpWord} {v : Word} (hgst : c.gate.gst = .open_)
    (hmode : c.rf (Reg.cmpCfg n.val) 0 2 < 3) (hnew : w = .cfg → fld v 0 2 < 3)
    (hon : (c.plainWrite (cmpAddr n w) v).rf (Reg.cmpCfg n.val) 0 2 ≠ 0) :
    c.writeCmp n.val (cmpAddr n w) v = c.plainWrite (cmpAddr n w) v := by
  have hcfg : fld (if cmpAddr n w = Reg.cmpCfg n.val then v else c.reg (Reg.cmpCfg n.val)) 0 2 < 3 := by
    cases w with
    | cfg => exact (if_pos (rfl : cmpAddr n .cfg = Reg.cmpCfg n.val)) ▸ hnew rfl
    | th => rw [if_neg (by simp only [cmpAddr, Reg.cmpCfg, Reg.cmpTh]; omega)]; exact hmode
  rw [Chip.writeCmp]
  dsimp only
  rw [hgst, if_neg (by simp [Nat.ne_of_lt hcfg]), if_neg hon]

end Sys2Proof.Machine
end

section
/-! CERTIFICATE. The statement of chapter 10 on the protection causes and GATE's registers. -/

namespace Sys2Proof.Certificates

open Sys2Proof.Machine Sys2Proof.Claims

/-- Settles O52: each cause by its test, which trips the gate from the state it is in; each register by its write. -/
theorem protectionAndGateRegisters : Obligations.protection_and_gate_registers := by
  unfold Obligations.protection_and_gate_registers
  refine ⟨fun s n i t0 hinv hup hzero => ⟨fun hgst hpre => ?short, fun hgst hdiff => ?ramp, fun hgst hbad => ?contactor,
      fun hgst => ?sense, fun hgst => ?driver, fun hgst hmode hact hlen => ?comparator, fun hmode hact => ?watch,
      fun hgst hact hifc htmax hstable hhigh => ?extTrip⟩,
    fun s m n w v hinv => ⟨fun hg hgst => ?clear, fun hg hgst => ?clearIgnored, fun hg => ?overvoltage,
      fun hg => ?undervoltage, fun hg => ?overcurrent, fun hg hgst => ?load, fun hg hgst => ?loadRefused,
      fun a ha hg => ⟨fun hact hgst => ?cmpRefused, fun hgst hmode hnew hon => ?cmpStored⟩⟩⟩
  case short =>
    refine ⟨_, does_run (f := Chip.pretElapsed) rfl (pretElapsed_prechg hup hgst hpre), ?_⟩
    rw [after_chip, settle_gate]
    generalize s.chip.gate.since + Nat.min (s.chip.rf Reg.precfg 0 16) (s.chip.rf Reg.precfg 16 16) * 100000 = t
    have hgate := elapseTick_gate s.chip t
    have hpreshi := reg_elapseTick hinv.regs (a := Reg.preshi) (by decide) t
    by_cases hlow : s.chip.gate.ishAbs < (s.chip.reg Reg.preshi).toNat
    · rw [shortTest_passed (by rw [hgate, hpreshi]; exact hlow), decide_eq_true hlow]
      exact ⟨rfl, fun hshort => absurd hlow (Nat.not_lt.mpr hshort), fun _ => by rw [hgate]; exact hgst⟩
    · have htrip := shortTest_failed (c := s.chip.elapseTick t) (by rw [hgate]; exact hgst) (by rw [hgate]; exact hzero)
        (by rw [hgate, hpreshi]; exact Nat.not_lt.mp hlow)
      exact ⟨htrip.fresh.trans (decide_eq_false hlow).symm, fun _ => ⟨htrip.gst, htrip.cause⟩, fun h => absurd h hlow⟩
  case ramp =>
    exact trips_of_run (f := Chip.ramptmoElapsed) rfl (ramptmoElapsed_disagrees hinv.regs hup hgst hdiff)
      (trippedBy_elapsed _ (by decide) (congrArg Gst.trips hgst) (congrArg (causeTested · 8) hgst) hzero)
  case contactor =>
    exact trips_of_run (f := fun c => c.contElapsed i.val) rfl (contElapsed_differs hup hbad)
      (trippedBy_elapsed _ (by decide) (congrArg Gst.trips hgst) (congrArg (causeTested · 10) hgst) hzero)
  case sense =>
    obtain ⟨t, ht⟩ := senseTimeout_connected hup (by rw [hgst]; decide)
    exact trips_of_run (f := Chip.senseTimeout) rfl ht
      (trippedBy_elapsed t (by decide) (congrArg Gst.trips hgst) (congrArg (causeTested · 12) hgst) hzero)
  case driver =>
    have htrip : Chip.TrippedBy { s.chip with pins.gateFltLow := true } 11 _ :=
      trippedBy_gateTest (by decide) (mem_gateLevels_drv rfl) (congrArg Gst.trips hgst)
        (congrArg (causeTested · 11) hgst) hzero
    refine ⟨_, does_run (f := fun c => c.gateFlt true) rfl (gateFlt_low hup), ?_⟩
    rw [after_chip, settle_gate]
    exact ⟨htrip.gst, htrip.cause, htrip.drive.trans (by simp [Gate.conOut, hgst])⟩
  case comparator =>
    obtain ⟨htrip, hregs, hflag⟩ := cmpOutside_trips n.isLt hinv.regs hact hlen hgst hzero
    refine ⟨_, does_run (f := fun c => c.cmpQualified n.val true) rfl
      ((cmpQualified_outside hup hmode).trans (if_pos hact)), ?_⟩
    rw [after_chip, settle_gate, Chip.bit, reg_settle hregs (by decide)]
    exact ⟨htrip.gst, htrip.cause, hflag⟩
  case watch =>
    exact does_run (f := fun c => c.cmpQualified n.val true) rfl
      ((cmpQualified_outside hup hmode).trans (if_neg (Bool.eq_false_iff.mp hact)))
  case extTrip =>
    obtain ⟨l, htest, hlow⟩ := inputQualified_extTrip hinv hup hifc hact htmax hstable hhigh
    exact trips_of_run (f := fun c => c.inputQualified 0 false 1) rfl htest
      (trippedBy_gateTest (by decide) (mem_gateLevels_ext hact hlow) (congrArg Gst.trips hgst)
        (congrArg (causeTested · 1) hgst) hzero)
  case clear =>
    refine ⟨_, does_write rfl hg (regWrite_causeclr _ v), ?_⟩
    rw [after_chip, settle_gate, settle_answer]
    exact ⟨(causeClear_gst v).trans hgst, rfl, fun k hk => getLsbD_causeClear hgst v hk⟩
  case clearIgnored => exact does_write rfl hg ((regWrite_causeclr _ v).trans (causeClear_ignored hgst v))
  case overvoltage =>
    obtain ⟨t, hexec, hlimit, hclamp⟩ := limitWrite_held .ovlim (v := v) hinv hg
    exact ⟨t, hexec, hlimit, fun hlt => hclamp (Nat.ne_of_lt (Nat.lt_of_le_of_lt (Nat.min_le_right _ _) hlt))⟩
  case undervoltage =>
    obtain ⟨t, hexec, hlimit, hclamp⟩ := limitWrite_held .uvlim (v := v) hinv hg
    exact ⟨t, hexec, hlimit, fun hlt => hclamp (Nat.ne_of_gt (Nat.lt_of_lt_of_le hlt (Nat.le_max_right _ _)))⟩
  case overcurrent =>
    obtain ⟨t, hexec, hlimit, hclamp⟩ := limitWrite_held .oclim (v := v) hinv hg
    exact ⟨t, hexec, hlimit, fun hlt => hclamp (Nat.ne_of_lt (Nat.lt_of_le_of_lt (Nat.min_le_right _ _) hlt))⟩
  case load => exact does_write rfl hg ((regWrite_eldcmt _ 3).trans (energyLoad_open hgst))
  case loadRefused => exact does_write rfl hg ((regWrite_eldcmt _ 3).trans (energyLoad_refused hgst))
  case cmpRefused =>
    subst ha
    exact does_write (a := cmpAddr n w) rfl hg ((regWrite_cmpAddr _ n w v).trans (writeCmp_closed _ v hact hgst))
  case cmpStored =>
    subst ha
    exact does_write (a := cmpAddr n w) rfl hg ((regWrite_cmpAddr _ n w v).trans (writeCmp_open hgst hmode hnew hon))

end Sys2Proof.Certificates
end

section
/-! SUPPORT. The rail sequencer: what its rails, its program and its register writes do (R369 to R391). -/

namespace Sys2Proof.Machine

variable {c : Chip} {v : Word}

/-! What leaves the sequencer alone. -/

/-- A plain write leaves the sequencer's state. -/
@[simp] theorem plainWrite_seq (c : Chip) (a : Nat) (v : Word) : (c.plainWrite a v).seq = c.seq := by
  unfold Chip.plainWrite
  split <;> rfl

/-- A plain write takes no time. -/
@[simp] theorem plainWrite_now (c : Chip) (a : Nat) (v : Word) : (c.plainWrite a v).now = c.now := by
  unfold Chip.plainWrite
  split <;> rfl

/-- The counters leave the sequencer's state. -/
@[simp] theorem pmonAdd_seq (c : Chip) (o : Occur) (k : Nat) : (c.pmonAdd o k).seq = c.seq :=
  ite_keeps Chip.seq
    (foldl_keeps Chip.seq _ _ _ fun _ _ => ite_keeps Chip.seq (ite_keeps Chip.seq (ite_keeps Chip.seq rfl rfl) rfl) rfl)
    rfl

/-- Beyond counting its ticks, passing time leaves the sequencer's state. -/
theorem elapse_seq_eq_pmonTicks (c : Chip) {k : Nat} (hk : k ≠ 0) : (c.elapse k).seq = (c.pmonTicks k).seq := by
  rw [Chip.elapse, if_neg hk]
  dsimp only
  repeat' split
  all_goals rfl

/-- Passing time leaves the sequencer's state. -/
@[simp] theorem elapseTo_seq (c : Chip) (t : Nat) : (c.elapseTo t).seq = c.seq := by
  rw [Chip.elapseTo]
  by_cases hk : t - c.now = 0
  · rw [Chip.elapse, if_pos hk]
  · exact (elapse_seq_eq_pmonTicks c hk).trans (pmonAdd_seq c _ _)

/-! Rails (R372, R377). -/

/-- The changed rail. -/
theorem rail_modRail {n : Nat} (h : n < c.seq.rails.length) (f : Rail → Rail) :
    (c.modRail n f).rail n = f (c.rail n) := by
  simp [Chip.rail, Chip.modRail, List.getD_eq_getElem?_getD, h]

/-- A rail's change leaves how rails discharge. -/
@[simp] theorem modRail_dchch (c : Chip) (n k : Nat) (f : Rail → Rail) : (c.modRail n f).dchch k = c.dchch k := rfl

/-- A rail that SEQ drives is one of its list. -/
theorem rail_lt_of_driven {n : Nat} (h : (c.rail n).driven = true) : n < c.seq.rails.length := by
  refine Nat.lt_of_not_le fun hlen => Bool.false_ne_true ?_
  rwa [Chip.rail, List.getD_eq_getElem?_getD, List.getElem?_eq_none hlen] at h

/-- A rail whose PG is not qualified good does not become GOOD. -/
theorem railRise_of_not_pgq {n : Nat} (h : (c.rail n).pgq = false) : c.railRise n = c := by
  simp [Chip.railRise, h]

/-- A driven OFF rail whose PG is not good is enabled to RISING, with its rise window. -/
theorem railOn_off {n : Nat} (hdrv : (c.rail n).driven = true) (hst : (c.rail n).st = .off)
    (hpg : (c.rail n).pgq = false) :
    c.railOn n = c.modRail n fun r => { r with st := .rising, riseAt := some c.now, chat := 0, retries := 0 } := by
  rw [Chip.railOn, if_pos (by simp [hdrv, hst])]
  refine railRise_of_not_pgq ?_
  rw [rail_modRail (rail_lt_of_driven hdrv)]
  exact hpg

/-- A GOOD rail that discharges by a result is disabled to FALLING. -/
theorem railOff_good {n : Nat} (hst : (c.rail n).st = .good) (hdch : c.dchch n ≠ 31) :
    c.railOff n = c.modRail n fun r =>
      { r with st := .falling, dchAt := c.now, riseAt := none, toLatch := false } := by
  rw [Chip.railOff, hst, Chip.railFall]
  exact if_neg (by simp [hdch])

/-! A word that names one rail. -/

/-- The one bit of a word that names a rail. -/
theorem getLsbD_word_one_shiftLeft {i k : Nat} (hk : k < 32) : (1#32 <<< i).getLsbD k = decide (k = i) := by
  rw [← BitVec.twoPow_eq, BitVec.getLsbD_twoPow]
  grind

/-- A pass over numbers that does something at one of them alone. -/
theorem foldl_range_of_only {α : Type} {f : α → Nat → α} {n m : Nat} (a : α)
    (h : ∀ a, ∀ k < m, k ≠ n → f a k = a) : (List.range m).foldl f a = if n < m then f a n else a := by
  induction m with
  | zero => rfl
  | succ m ih =>
    rw [List.range_succ, List.foldl_append, ih fun a k hk => h a k (Nat.lt_succ_of_lt hk), List.foldl_cons,
      List.foldl_nil]
    by_cases hm : m = n
    · rw [hm, if_neg (Nat.lt_irrefl n), if_pos (Nat.lt_succ_self n)]
    · rw [h _ m (Nat.lt_succ_self m) hm]
      exact ite_congr (propext (by omega)) (fun _ => rfl) fun _ => rfl

/-- RAILCMD while a program runs is refused with CMDREF (R382). -/
theorem railcmd_running (hrun : c.seq.run = true) (v : Word) : c.railcmd v = c.setBit Reg.seqstat 8 := if_pos hrun

/-- RAILCMD with the on bit of one rail enables that rail. -/
theorem railcmd_on {n : Nat} (hrun : c.seq.run = false) (hn : n < 16) : c.railcmd (1#32 <<< n) = c.railOn n := by
  have hoff : ∀ k < 16, (1#32 <<< n).getLsbD (16 + k) = false := fun k hk => by
    rw [getLsbD_word_one_shiftLeft (by omega)]; exact decide_eq_false (by omega)
  rw [Chip.railcmd, if_neg (by simp [hrun]), foldl_range_of_only (n := n), if_pos hn, hoff n hn,
    getLsbD_word_one_shiftLeft (by omega)]
  · simp
  · intro c k hk hne
    rw [hoff k hk, getLsbD_word_one_shiftLeft (by omega), decide_eq_false hne]
    rfl

/-- RAILCMD with the off bit of one rail disables that rail. -/
theorem railcmd_off {n : Nat} (hrun : c.seq.run = false) (hn : n < 16) :
    c.railcmd (1#32 <<< (16 + n)) = c.railOff n := by
  rw [Chip.railcmd, if_neg (by simp [hrun]), foldl_range_of_only (n := n), if_pos hn,
    getLsbD_word_one_shiftLeft (by omega)]
  · simp
  · intro c k hk hne
    rw [getLsbD_word_one_shiftLeft (by omega), getLsbD_word_one_shiftLeft (by omega), decide_eq_false (by omega),
      decide_eq_false (by omega)]
    rfl

/-- RAILCLR with the bit of one LATCHED rail takes that rail to OFF. -/
theorem railclr_latched {n : Nat} (hn : n < 16) (hst : (c.rail n).st = .latched) :
    c.railclr (1#32 <<< n) = (c.modRail n fun r => { r with st := .off }).seqPoll := by
  rw [Chip.railclr, foldl_range_of_only (n := n), if_pos hn, getLsbD_word_one_shiftLeft (by omega), hst]
  · simp
  · intro c k hk hne
    rw [getLsbD_word_one_shiftLeft (by omega), decide_eq_false hne]
    rfl

/-! The program (R378 to R381, R428). -/

/-- A program that is not running starts at its entry point, while SEQCTL.EN = 1. -/
theorem seqStart_idle (hrun : c.seq.run = false) (hen : c.seqEn = true) (shut : Bool) :
    c.seqStart shut = { c with seq := { c.seq with
      run := true, inShut := shut, wait := .none,
      pc := if shut then c.rf Reg.seqent 16 9 else c.rf Reg.seqent 0 9 } } :=
  if_neg (by simp [hrun, hen])

/-- Before the last step the program goes on at the next one. -/
theorem seqNext_of_lt (h : c.seq.pc < 511) :
    c.seqNext = { c with seq := { c.seq with pc := c.seq.pc + 1, wait := .none } } :=
  if_neg (Nat.not_le.mpr h)

/-- A target within the step memory is where the program goes on. -/
theorem seqJump_of_le {t : Nat} (h : t ≤ 511) :
    c.seqJump t = { c with seq := { c.seq with pc := t, wait := .none } } :=
  if_neg (Nat.not_lt.mpr h)

/-- A target past the step memory is a program fault with cause 2. -/
theorem seqJump_of_gt {t : Nat} (h : 511 < t) : c.seqJump t = c.programFault 2 := if_pos h

/-- Where no step waits there is no CHECK to decide. -/
theorem seqPoll_of_wait_none (h : c.seq.wait = .none) : c.seqPoll = c := by
  rw [Chip.seqPoll, h]

/-! SEQCMD (R378). -/

theorem regWrite_seqcmd (c : Chip) (v : Word) : c.regWrite Reg.seqcmd v = c.writeSeqcmd v := rfl

/-- Without the key a write does nothing. -/
theorem writeSeqcmd_wrong_key (h : fld v 16 16 ≠ 0x5E9C) : c.writeSeqcmd v = c := if_pos h

/-- With the key, RUNSTART or RUNSHUT starts a program where none runs, and is refused with CMDREF where one does. -/
theorem writeSeqcmd_start (hkey : fld v 16 16 = 0x5E9C) (hstart : (v.getLsbD 0 || v.getLsbD 1) = true)
    (hstop : v.getLsbD 2 = false) :
    c.writeSeqcmd v = if c.seq.run then c.setBit Reg.seqstat 8 else c.seqStart (v.getLsbD 1) := by
  simp only [Chip.writeSeqcmd, hkey, hstart, hstop, ne_eq, not_true, if_false, if_true, Bool.false_and,
    Bool.false_eq_true]

/-- With the key, STOP ends the running program. -/
theorem writeSeqcmd_stop (hkey : fld v 16 16 = 0x5E9C) (hstart : (v.getLsbD 0 || v.getLsbD 1) = false)
    (hstop : v.getLsbD 2 = true) (hrun : c.seq.run = true) : c.writeSeqcmd v = c.seqStop := by
  simp only [Chip.writeSeqcmd, hkey, hstart, hstop, hrun, ne_eq, not_true, if_false, if_true, Bool.and_self,
    Bool.false_eq_true]

/-- RUNSTART where no program runs. -/
theorem writeSeqcmd_runstart (hrun : c.seq.run = false) (hen : c.seqEn = true) :
    c.writeSeqcmd 0x5E9C0001 = { c with seq := { c.seq with
      run := true, inShut := false, wait := .none, pc := c.rf Reg.seqent 0 9 } } := by
  rw [writeSeqcmd_start (by decide) (by decide) (by decide), hrun]
  exact seqStart_idle hrun hen false

/-- RUNSHUT where no program runs. -/
theorem writeSeqcmd_runshut (hrun : c.seq.run = false) (hen : c.seqEn = true) :
    c.writeSeqcmd 0x5E9C0002 = { c with seq := { c.seq with
      run := true, inShut := true, wait := .none, pc := c.rf Reg.seqent 16 9 } } := by
  rw [writeSeqcmd_start (by decide) (by decide) (by decide), hrun]
  exact seqStart_idle hrun hen true

/-! RAILCMD, RAILCLR, SYNCSET and step memory (R378, R382, R387). -/

theorem regWrite_railcmd (c : Chip) (v : Word) : c.regWrite Reg.railcmd v = c.railcmd v := rfl

theorem regWrite_railclr (c : Chip) (v : Word) : c.regWrite Reg.railclr v = c.railclr v := rfl

/-- SYNCSET loads SYNCST, except while a SYNC step waits. -/
theorem regWrite_syncset (c : Chip) (v : Word) :
    c.regWrite Reg.syncset v = if c.seq.syncWaits then c else { c with seq.syncSt := fld v 0 8 } := rfl

/-- A write of step memory is stored, except while a program runs: then it is refused with MEMREF. -/
theorem regWrite_stepMem (c : Chip) (i : Fin 512) (v : Word) :
    c.regWrite (Reg.stepMem i.val) v =
      if c.seq.run then c.setBit Reg.seqstat 9 else c.plainWrite (Reg.stepMem i.val) v := by
  have hblock : blockNo (Reg.stepMem i.val) = 9 := by simp only [blockNo, Reg.stepMem]; omega
  have hne : ∀ b < Reg.stepMem 0, Reg.stepMem i.val ≠ b := fun b hb => by simp only [Reg.stepMem] at hb ⊢; omega
  rw [Chip.regWrite, hblock]
  show writeSeq c (Reg.stepMem i.val) v = _
  rw [writeSeq, if_neg (hne _ (by decide)), if_neg (hne _ (by decide)), if_neg (hne _ (by decide)),
    if_neg (hne _ (by decide)), if_neg (hne _ (by decide)), if_pos (by simp; omega)]

/-! SEQCTL (R383, R391). -/

theorem regWrite_seqctl (c : Chip) (v : Word) : c.regWrite Reg.seqctl v = c.writeSeqctl v := rfl

/-- Clearing EN, with no SYNC step waiting, ends the program. -/
theorem writeSeqctl_zero (hsync : c.seq.syncWaits = false) : c.writeSeqctl 0 = { c.plainWrite Reg.seqctl 0 with
    seq := { c.seq with run := false, inShut := false, wait := .none } } := by
  simp [Chip.writeSeqctl, Chip.seqStop, hsync]

/-- A pin that SEQ drives, and one that is not SEQ's to drive, are not taken over. -/
theorem railTake_of_settled {n : Nat} (h : c.bit (Reg.rnCfg n) 0 = false ∨ (c.rail n).driven = true) :
    c.railTake n = c :=
  if_pos (by rcases h with h | h <;> simp [h])

/-- Where every pin stands as RnCFG has it, none is taken over. -/
theorem foldl_railTake_of_settled (h : ∀ k < 16, c.bit (Reg.rnCfg k) 0 = false ∨ (c.rail k).driven = true) :
    (List.range 16).foldl Chip.railTake c = c :=
  List.foldlRecOn (motive := (· = c)) _ _ rfl fun d hd k hk => by
    rw [hd, railTake_of_settled (h k (List.mem_range.mp hk))]

/-- What a setting of AUXEN leaves of the part (R383). -/
def Chip.auxFresh (c : Chip) : Chip :=
  { c.plainWrite Reg.seqctl 5 with seq := { c.seq with
      auxGood := true, auxLow := 0, auxHiAt := none, auxLast := c.now, auxStale := false, auxRe := false } }

/-- Setting AUXEN, with EN set, no step waiting and every pin as RnCFG has it, takes the auxiliary input as good and
does no more. -/
theorem writeSeqctl_auxen (hinv : c.Inv) (hold : c.reg Reg.seqctl = 1) (hwait : c.seq.wait = .none)
    (hrails : ∀ k < 16, c.bit (Reg.rnCfg k) 0 = false ∨ (c.rail k).driven = true) :
    c.writeSeqctl 5 = c.auxFresh := by
  have hfresh : c.writeSeqctl 5 = ((List.range 16).foldl Chip.railTake c.auxFresh).seqPoll := by
    simp [Chip.writeSeqctl, Chip.auxFresh, Seq.syncWaits, hold, hwait]
  have hkept : ∀ k < 16, c.auxFresh.bit (Reg.rnCfg k) 0 = false ∨ (c.auxFresh.rail k).driven = true := fun k hk => by
    have hreg : c.auxFresh.reg (Reg.rnCfg k) = c.reg (Reg.rnCfg k) :=
      reg_plainWrite_ne hinv (by simp only [Reg.rnCfg, Reg.seqctl]; omega) 5
    rw [Chip.bit, hreg]
    exact hrails k hk
  rw [hfresh, foldl_railTake_of_settled hkept]
  exact seqPoll_of_wait_none hwait

end Sys2Proof.Machine
end

section
/-! CERTIFICATE. The statements of chapter 12 on the rail sequencer. -/

namespace Sys2Proof.Certificates

open Sys2Proof.Machine Sys2Proof.Claims

/-- Settles O30: each SEQ register by its write, one rail at a time. -/
theorem sequencerCommands : Obligations.sequencer_commands := by
  unfold Obligations.sequencer_commands
  intro s m n v hinv
  refine ⟨fun hg hrun hen => ⟨?runstart, ?runshut⟩, fun hg hrun => ⟨?startRefused, ?shutRefused, ?stop⟩,
    fun hg hkey => ?wrongKey, fun hg hrun => ?railRefused, fun hg hrun hdrv hst hpg => ?railOn,
    fun hg hrun hst hdch => ?railOff, fun hg hst => ?railClear, fun hg hsync => ?syncLoad, fun hg hsync => ?syncIgnored,
    fun i hg => ⟨fun hrun => ?stepStored, fun hrun => ?stepRefused⟩, fun hg hsync => ?disable,
    fun hg hold hwait hrails => ?auxen⟩
  case runstart => exact does_write rfl hg ((regWrite_seqcmd _ _).trans (writeSeqcmd_runstart hrun hen))
  case runshut => exact does_write rfl hg ((regWrite_seqcmd _ _).trans (writeSeqcmd_runshut hrun hen))
  case startRefused =>
    refine does_write rfl hg ?_
    rw [regWrite_seqcmd, writeSeqcmd_start (by decide) (by decide) (by decide), if_pos hrun]
  case shutRefused =>
    refine does_write rfl hg ?_
    rw [regWrite_seqcmd, writeSeqcmd_start (by decide) (by decide) (by decide), if_pos hrun]
  case stop =>
    exact does_write rfl hg
      ((regWrite_seqcmd _ _).trans (writeSeqcmd_stop (by decide) (by decide) (by decide) hrun))
  case wrongKey => exact does_write rfl hg ((regWrite_seqcmd _ _).trans (writeSeqcmd_wrong_key hkey))
  case railRefused => exact does_write rfl hg ((regWrite_railcmd _ _).trans (railcmd_running hrun v))
  case railOn =>
    exact does_write rfl hg (by rw [regWrite_railcmd, railcmd_on hrun n.isLt, railOn_off hdrv hst hpg])
  case railOff =>
    exact does_write rfl hg (by rw [regWrite_railcmd, railcmd_off hrun n.isLt, railOff_good hst hdch])
  case railClear => exact does_write rfl hg ((regWrite_railclr _ _).trans (railclr_latched n.isLt hst))
  case syncLoad => exact does_write rfl hg (by rw [regWrite_syncset, hsync]; rfl)
  case syncIgnored => exact does_write rfl hg (by rw [regWrite_syncset, if_pos hsync])
  case stepStored => exact does_write rfl hg (by rw [regWrite_stepMem, hrun]; rfl)
  case stepRefused => exact does_write rfl hg (by rw [regWrite_stepMem, if_pos hrun])
  case disable => exact does_write rfl hg ((regWrite_seqctl _ _).trans (writeSeqctl_zero hsync))
  case auxen =>
    exact does_write rfl hg ((regWrite_seqctl _ _).trans
      (writeSeqctl_auxen hinv hold hwait fun k hk => hrails ⟨k, hk⟩))

end Sys2Proof.Certificates
end

section
/-! SUPPORT. The steps of a sequence program, what ends a waiting one, and what the auxiliary and SYNC inputs do
(R380, R383, R384, R387 to R389, R426). -/

namespace Sys2Proof.Machine

open Sys2Proof.Claims

variable {c : Chip}

/-! Steps (R380, R428). -/

/-- A sequencer that has a step to execute executes one of the kind that the command names. -/
theorem seqRun_of_decode {st : SeqStep} {kind : SeqStep → Bool} (hready : c.seqReady = true)
    (hstep : seqDecode c.stepWord = some st) (hkind : kind st = true) : c.seqRun kind = c.seqStep st := by
  rw [Chip.seqRun, hready, hstep]
  exact if_pos hkind

/-- A command that executes a step of its kind does what that step does. -/
theorem does_step {s : State} {i : Instr} {kind : SeqStep → Bool} {st : SeqStep} {c : Chip}
    (hi : exec i s = s.run fun c => c.seqRun kind) (hready : s.chip.seqReady = true)
    (hstep : seqDecode s.chip.stepWord = some st) (hkind : kind st = true) (h : s.chip.seqStep st = c) : Does s i c :=
  does_run hi ((seqRun_of_decode hready hstep hkind).trans h)

/-- A reserved step word is a program fault with cause 1. -/
theorem seqReserved_of_decode (hready : c.seqReady = true) (hstep : seqDecode c.stepWord = none) :
    c.seqReserved = c.programFault 1 :=
  if_pos (by simp [hready, hstep])

/-- A JUMP's condition is a field of two bits. -/
theorem jump_cond_lt {w : Word} {k f t : Nat} (h : seqDecode w = some (.jump k f t)) : k < 4 := by
  unfold seqDecode at h
  repeat' split at h
  all_goals cases h
  exact Nat.mod_lt _ (by decide)

/-- When a JUMP is taken (Table 13.21). -/
theorem seqCond_iff {k : Nat} (hk : k < 4) (f : Nat) :
    c.seqCond k f = true ↔ k = 0 ∨ (k = 1 ∧ c.seq.auxGood = true) ∨ (k = 2 ∧ c.bit Reg.swflag f = true) ∨
      (k = 3 ∧ c.bit Reg.swflag f = false) := by
  obtain rfl | rfl | rfl | rfl : k = 0 ∨ k = 1 ∨ k = 2 ∨ k = 3 := by omega
  all_goals simp [Chip.seqCond]

/-- A JUMP to a step of the memory goes on there or at the next one. -/
theorem seqStep_jump {k f target : Nat} (hpc : c.seq.pc < 511) (htarget : target ≤ 511) :
    c.seqStep (.jump k f target) = { c with seq := { c.seq with
      wait := .none, pc := if c.seqCond k f then target else c.seq.pc + 1 } } := by
  rw [Chip.seqStep, seqJump_of_le htarget, seqNext_of_lt hpc]
  split <;> rfl

/-- A SYNC step whose state is reached, or with SYNCEN = 0, completes at once. -/
theorem seqSync_passed {x target : Nat} (h : c.bit Reg.seqctl 1 = false ∨ x = c.seq.syncSt) :
    c.seqSync x target = c.seqNext :=
  if_pos (by simpa using h)

/-- A SYNC step of the next state waits for it. -/
theorem seqSync_waits {x target : Nat} (hen : c.bit Reg.seqctl 1 = true) (hnext : x = (c.seq.syncSt + 1) % 256)
    (hne : x ≠ c.seq.syncSt) :
    c.seqSync x target = { c with seq.wait := .sync x (if c.rf Reg.synccfg 0 16 = 0 then none
      else some (c.now + c.rf Reg.synccfg 0 16 * 100000)) target } :=
  (if_neg (by simpa [hen] using hne)).trans (if_pos hnext)

/-- A SYNC step of any other state is a program fault with cause 4. -/
theorem seqSync_fault {x target : Nat} (hen : c.bit Reg.seqctl 1 = true) (hnext : x ≠ (c.seq.syncSt + 1) % 256)
    (hne : x ≠ c.seq.syncSt) : c.seqSync x target = c.programFault 4 :=
  (if_neg (by simpa [hen] using hne)).trans (if_neg hnext)

/-- END of a program that is not the shutdown program ends it with event 93. -/
theorem seqEnd_of_not_inShut (h : c.seq.inShut = false) : c.seqEnd = c.seqStop.raise 93 := by
  rw [Chip.seqEnd, h]
  rfl

/-! The ends of waiting steps (R380, R389). -/

section Timers

variable (hup : c.up .seq = true)
include hup

/-- A WAIT ends at its time. -/
theorem waitExpiry_due {due : Nat} (hwait : c.seq.wait = .time due) : c.waitExpiry = (c.elapseTo due).seqNext := by
  rw [Chip.waitExpiry, hup, hwait]

/-- A CHECK with a timeout fails at it to its target. -/
theorem checkTimeout_due {d : Bool} {k due target : Nat} (hwait : c.seq.wait = .check d k (some due) target) :
    c.checkTimeout = (c.elapseTo due).seqJump target := by
  rw [Chip.checkTimeout, hup, hwait]

/-- A SYNC step with a timeout fails at it to its target, with SYNCTO and event 92. -/
theorem syncTimeout_due {x due target : Nat} (hwait : c.seq.wait = .sync x (some due) target) :
    c.syncTimeout = (((c.elapseTo due).setBit Reg.seqstat 10).raise 92).seqJump target := by
  rw [Chip.syncTimeout, hup, hwait]

/-- A qualified low is kept until the next qualified high. -/
theorem syncFell_up : c.syncFell = { c with seq.lineLo := true, seq.lineHi := false } := if_pos hup

end Timers

/-! The SYNC line (R387 to R389). -/

/-- The SYNC rules run in a domain that is up. -/
theorem up_of_syncOn (h : c.syncOn = true) : c.up .seq = true := by
  simp only [Chip.syncOn, Bool.and_eq_true] at h
  exact h.1.1

/-- Whether the SYNC rules run does not depend on the sequencer's state. -/
theorem syncOn_withSeq (c : Chip) (q : Seq) : ({ c with seq := q } : Chip).syncOn = c.syncOn := rfl

/-- The part after a rise that the SYNC rules count. -/
def Chip.syncRisen (c : Chip) : Chip :=
  { c with seq := { c.seq with
      lineHi := true, lineLo := false, lastRise := some c.now, syncSt := (c.seq.syncSt + 1) % 256 } }

/-- A high that follows a low is counted. -/
theorem syncRise_counted (hon : c.syncOn = true) (hlow : c.seq.lineLo = true) (hwait : c.seq.wait = .none) :
    c.syncRise = c.syncRisen := by
  simp [Chip.syncRise, Chip.syncRisen, up_of_syncOn hon, syncOn_withSeq, hon, hlow, hwait]

/-- A counted rise ends a step that waits for the state it reaches. -/
theorem syncRise_awaited {due : Option Nat} {target : Nat} (hon : c.syncOn = true) (hlow : c.seq.lineLo = true)
    (hwait : c.seq.wait = .sync ((c.seq.syncSt + 1) % 256) due target) : c.syncRise = c.syncRisen.seqNext := by
  simp [Chip.syncRise, Chip.syncRisen, up_of_syncOn hon, syncOn_withSeq, hon, hlow, hwait]

/-- The pulse's timer runs to the first of its two instants that is still ahead. -/
theorem syncPulse_rise {t : Nat} (hon : c.syncOn = true) (hrise : c.seq.lastRise = some t) :
    c.syncPulse = if c.now < t + 300 then c.elapseTo (t + 300)
      else if c.now < t + 400 then c.elapseTo (t + 400) else c := by
  rw [Chip.syncPulse, hon, hrise]

/-! The auxiliary input (R383, R384). -/

/-- The auxiliary rules run while SEQCTL.EN = 1. -/
theorem seqEn_of_auxOn (h : c.auxOn = true) : c.seqEn = true := by
  simp only [Chip.auxOn, Bool.and_eq_true] at h
  exact h.1.2

/-- A lost input during the shutdown program raises event 8 and lets it go on. -/
theorem auxLost_inShut (hon : c.auxOn = true) (hgood : c.seq.auxGood = true) (hshut : c.seq.inShut = true) :
    c.auxLost = { c with seq.auxGood := false, seq.auxRe := false }.raise 8 := by
  rw [Chip.auxLost, if_neg (by simp [hon, hgood])]
  exact if_pos hshut

/-- A lost input elsewhere raises event 8 and starts the shutdown program. -/
theorem auxLost_starts (hon : c.auxOn = true) (hgood : c.seq.auxGood = true) (hshut : c.seq.inShut = false) :
    c.auxLost = { c with seq := { c.seq with
      auxGood := false, auxRe := false, run := true, inShut := true, wait := .none,
      pc := c.rf Reg.seqent 16 9 } }.raise 8 := by
  rw [Chip.auxLost, if_neg (by simp [hon, hgood])]
  refine (if_neg (Bool.eq_false_iff.mp hshut)).trans (seqStart_idle rfl ?_ true)
  exact seqEn_of_auxOn hon

/-- The end of the qualification of a lost input raises event 9; without a restart to make it starts no program. -/
theorem auxiliaryGood_lost {t : Nat} (hon : c.auxOn = true) (hlost : c.seq.auxGood = false) (hre : c.seq.auxRe = false)
    (hhigh : c.seq.auxHiAt = some t) :
    c.auxiliaryGood = { (c.elapseTo (t + orOne (c.rf Reg.auxcfg 8 8) * 100000)).raise 9 with
      seq := { c.seq with auxGood := true, auxRe := false } } := by
  simp [Chip.auxiliaryGood, hon, hlost, hre, hhigh, Chip.raiseIf]

/-- 10 000 ticks without a result set AUXSTALE. -/
theorem auxiliaryStale_fresh (hon : c.auxOn = true) (hstale : c.seq.auxStale = false) :
    c.auxiliaryStale = { c.elapseTo (c.seq.auxLast + 10000) with seq := { c.seq with auxStale := true } } := by
  simp [Chip.auxiliaryStale, hon, hstale]

end Sys2Proof.Machine
end

section
/-! CERTIFICATE. The statement of chapter 12 on sequence steps and the sequencer's inputs. -/

namespace Sys2Proof.Certificates

open Sys2Proof.Machine Sys2Proof.Claims

/-- Settles O32: each step by its kind, and each timer and input by its test. -/
theorem sequenceStepsAndInputs : Obligations.sequence_steps_and_inputs := by
  unfold Obligations.sequence_steps_and_inputs
  refine ⟨fun s hready hpc => ⟨fun on mask hstep => ⟨fun hown => ?en, fun hown => ?enUnowned⟩, fun us hstep => ?wait,
      fun down k mask target hstep hown => ?check, fun k f target hstep htarget => ?jump,
      fun k f target hstep hk htarget => ?jumpFault, fun x target hstep => ⟨fun hpass => ?syncPassed,
        fun hen hnext hne => ?syncWaits, fun hen hnext hne => ?syncFault⟩, fun hstep hshut => ?end_,
      fun hstep => ?reserved⟩,
    fun s hup hinv => ⟨fun due hwait hpc => ?waitExpiry, fun d k due target hwait htarget => ?checkTimeout,
      fun x due target hwait htarget => ?syncTimeout, fun hon hlow hwait => ?rise,
      fun due target hon hlow hpc hwait => ?riseAwaited, ?low, fun t hon hrise hnow => ?pulseFirst,
      fun t hon hrise hpast hnow => ?pulseSecond, fun hon hgood hshut => ?auxLost,
      fun hon hgood hshut => ?auxLostInShut, fun t hon hlost hre hhigh => ?auxGood, fun hon hstale => ?auxStale⟩⟩
  case en => exact does_step rfl hready hstep rfl (if_neg (Bool.eq_false_iff.mp hown))
  case enUnowned => exact does_step rfl hready hstep rfl (if_pos hown)
  case wait => exact does_step rfl hready hstep rfl rfl
  case check => exact does_step rfl hready hstep rfl (if_neg (Bool.eq_false_iff.mp hown))
  case jump =>
    refine does_step rfl hready hstep rfl ((seqStep_jump hpc htarget).trans ?_)
    rw [ite_congr (propext (seqCond_iff (jump_cond_lt hstep) f)) (fun _ => rfl) fun _ => rfl]
  case jumpFault =>
    subst hk
    exact does_step rfl hready hstep rfl (seqJump_of_gt htarget)
  case syncPassed => exact does_step rfl hready hstep rfl ((seqSync_passed hpass).trans (seqNext_of_lt hpc))
  case syncWaits => exact does_step rfl hready hstep rfl (seqSync_waits hen hnext hne)
  case syncFault => exact does_step rfl hready hstep rfl (seqSync_fault hen hnext hne)
  case end_ => exact does_step rfl hready hstep rfl (seqEnd_of_not_inShut hshut)
  case reserved => exact does_run rfl (seqReserved_of_decode hready hstep)
  case waitExpiry =>
    exact does_run rfl (by rw [waitExpiry_due hup hwait, seqNext_of_lt (by rwa [elapseTo_seq]), elapseTo_seq])
  case checkTimeout =>
    exact does_run rfl (by rw [checkTimeout_due hup hwait, seqJump_of_le htarget, elapseTo_seq])
  case syncTimeout =>
    exact does_run rfl (by
      rw [syncTimeout_due hup hwait, seqJump_of_le htarget, Chip.raise_seq, Chip.setBit_seq, elapseTo_seq])
  case rise => exact does_run rfl (syncRise_counted hon hlow hwait)
  case riseAwaited =>
    exact does_run rfl ((syncRise_awaited hon hlow hwait).trans (seqNext_of_lt (c := s.chip.syncRisen) hpc))
  case low => exact does_run rfl (syncFell_up hup)
  case pulseFirst => exact does_run rfl (by rw [syncPulse_rise hon hrise, if_pos hnow])
  case pulseSecond =>
    exact does_run rfl (by rw [syncPulse_rise hon hrise, if_neg (Nat.not_lt.mpr hpast), if_pos hnow])
  case auxLost => exact does_run rfl (auxLost_starts hon hgood hshut)
  case auxLostInShut => exact does_run rfl (auxLost_inShut hon hgood hshut)
  case auxGood => exact does_run rfl (auxiliaryGood_lost hon hlost hre hhigh)
  case auxStale => exact does_run rfl (auxiliaryStale_fresh hon hstale)

end Sys2Proof.Certificates
end

section
/-! SUPPORT. The flash code (R461, R462). Its syndrome and its overall parity are linear over exclusive OR, so a stored
word that differs from the coded one by the pattern `x` shows the syndrome and the parity of `x` alone. -/

namespace Sys2Proof.Machine

/-! Linearity. -/

/-- An exclusive OR made twice is undone. -/
theorem xor_cancel_left (a b : Nat) : a ^^^ (a ^^^ b) = b := by
  rw [← Nat.xor_assoc, Nat.xor_self, Nat.zero_xor]

/-- Folding a position-wise exclusive OR of two families is the exclusive OR of the two folds. -/
theorem foldl_xor_mapIdx_xor (l : List Nat) (f g : Nat → Nat → Nat) (a b : Nat) :
    (l.mapIdx fun i p => f i p ^^^ g i p).foldl Nat.xor (a ^^^ b) =
      (l.mapIdx f).foldl Nat.xor a ^^^ (l.mapIdx g).foldl Nat.xor b := by
  induction l generalizing f g a b with
  | nil => rfl
  | cons p l ih =>
    have hacc : Nat.xor (a ^^^ b) (f 0 p ^^^ g 0 p) = Nat.xor a (f 0 p) ^^^ Nat.xor b (g 0 p) :=
      (by ac_rfl : a ^^^ b ^^^ (f 0 p ^^^ g 0 p) = a ^^^ f 0 p ^^^ (b ^^^ g 0 p))
    simp only [List.mapIdx_cons, List.foldl_cons, hacc]
    exact ih (fun i => f (i + 1)) (fun i => g (i + 1)) _ _

/-- The syndrome is linear. -/
theorem eccSyndrome_xor (d x : BitVec 64) : eccSyndrome (d ^^^ x) = eccSyndrome d ^^^ eccSyndrome x := by
  have hbit : (fun i p => if (d ^^^ x).getLsbD i then p else 0) =
      fun i p => (if d.getLsbD i then p else 0) ^^^ (if x.getLsbD i then p else 0) := by
    funext i p
    rw [BitVec.getLsbD_xor]
    cases d.getLsbD i <;> cases x.getLsbD i <;> simp
  rw [eccSyndrome, hbit]
  exact foldl_xor_mapIdx_xor codePos _ _ 0 0

/-- The parity of the low bits is linear. -/
theorem natParity_xor (n v w : Nat) : natParity n (v ^^^ w) = (natParity n v != natParity n w) := by
  induction n generalizing v w with
  | zero => rfl
  | succ n ih =>
    have hlow : decide ((v ^^^ w) % 2 = 1) = (decide (v % 2 = 1) != decide (w % 2 = 1)) := by
      simpa using Nat.testBit_xor v w 0
    rw [natParity, natParity, natParity, Nat.xor_div_two, ih, hlow]
    simp only [Bool.bne_assoc]
    exact congrArg _ (Bool.xor_left_comm _ _ _)

/-- Zero has even parity. -/
theorem natParity_zero (n : Nat) : natParity n 0 = false := by simpa using natParity_xor n 0 0

/-- The syndrome of no bits is 0. -/
theorem eccSyndrome_zero : eccSyndrome 0#64 = 0 := by simpa using eccSyndrome_xor 0#64 0#64

/-! The check bits of a word (R461). -/

/-- Exclusive ORs of `n`-bit numbers have `n` bits. -/
theorem foldl_xor_lt (n : Nat) :
    ∀ (l : List Nat) (a : Nat), a < 2 ^ n → (∀ p ∈ l, p < 2 ^ n) → l.foldl Nat.xor a < 2 ^ n
  | [], _, ha, _ => ha
  | p :: l, a, ha, hl =>
    foldl_xor_lt n l _ (Nat.xor_lt_two_pow ha (hl p (by simp))) fun q hq => hl q (List.mem_cons_of_mem p hq)

/-- A syndrome has seven bits. -/
theorem eccSyndrome_lt (d : BitVec 64) : eccSyndrome d < 128 := by
  refine foldl_xor_lt 7 _ 0 (by decide) fun q hq => ?_
  obtain ⟨i, hi, rfl⟩ := List.mem_mapIdx.mp hq
  have hpos : ∀ p ∈ codePos, p < 2 ^ 7 := by decide
  split
  · exact hpos _ (List.getElem_mem hi)
  · decide

/-- One bit above the low ones changes their parity when it is set. -/
theorem natParity_succ_add (n v : Nat) (b : Bool) (hv : v < 2 ^ n) :
    natParity (n + 1) (v + 2 ^ n * b2n b) = (natParity n v != b) := by
  induction n generalizing v with
  | zero =>
    obtain rfl : v = 0 := by omega
    cases b <;> rfl
  | succ n ih =>
    have hmod : (v + 2 ^ (n + 1) * b2n b) % 2 = v % 2 := by
      rw [Nat.pow_succ', Nat.mul_assoc, Nat.add_mul_mod_self_left]
    have hdiv : (v + 2 ^ (n + 1) * b2n b) / 2 = v / 2 + 2 ^ n * b2n b := by
      rw [Nat.pow_succ', Nat.mul_assoc, Nat.add_mul_div_left _ _ Nat.two_pos]
    rw [natParity, hmod, hdiv, ih (v / 2) (by omega), natParity, Bool.bne_assoc]

/-- The value of the eight check bits. -/
theorem eccBits_toNat (d : BitVec 64) :
    (eccBits d).toNat =
      eccSyndrome d + 2 ^ 7 * b2n (natParity 64 d.toNat != natParity 7 (eccSyndrome d)) := by
  have hs := eccSyndrome_lt d
  have hb : ∀ b, b2n b ≤ 1 := by decide
  have hq := hb (natParity 64 d.toNat != natParity 7 (eccSyndrome d))
  exact Nat.mod_eq_of_lt (by omega)

/-- c0 to c6 are the word's syndrome. -/
theorem eccBits_syndrome (d : BitVec 64) : (eccBits d).toNat % 128 = eccSyndrome d := by
  have hs := eccSyndrome_lt d
  rw [eccBits_toNat]
  omega

/-- c7 makes the parity of the check bits that of the word. -/
theorem eccBits_parity (d : BitVec 64) : natParity 8 (eccBits d).toNat = natParity 64 d.toNat := by
  rw [eccBits_toNat, natParity_succ_add 7 _ _ (eccSyndrome_lt d)]
  cases natParity 64 d.toNat <;> cases natParity 7 (eccSyndrome d) <;> rfl

/-! Reading a word whose data bits are wrong by a pattern (Table 15.2). -/

section Pattern

variable {c : Chip} {a : Nat} {d x : BitVec 64}
variable (hchk : c.flashChk a = eccBits d) (hdata : c.flashData a = d ^^^ x)
include hchk hdata

/-- The syndrome that a read forms is the pattern's. -/
theorem readSyndrome_pattern : Nat.xor (eccSyndrome (c.flashData a)) ((c.flashChk a).toNat % 128) = eccSyndrome x := by
  rw [hdata, hchk, eccBits_syndrome, eccSyndrome_xor]
  exact (Nat.xor_comm _ _).trans (xor_cancel_left _ _)

/-- The overall parity that a read forms is the pattern's. -/
theorem readParity_pattern :
    (natParity 64 (c.flashData a).toNat != natParity 8 (c.flashChk a).toNat) = natParity 64 x.toNat := by
  rw [hdata, hchk, eccBits_parity, BitVec.toNat_xor, natParity_xor]
  cases natParity 64 d.toNat <;> cases natParity 64 x.toNat <;> rfl

variable (herased : c.erased a = false)
include herased

/-- An odd pattern whose syndrome is a data bit's position has that bit inverted. -/
theorem flashRead_oddPattern {i : Nat} (hodd : natParity 64 x.toNat = true)
    (hpos : codePos.findIdx? (· = eccSyndrome x) = some i) :
    c.flashRead a = some (d ^^^ x ^^^ (1#64 <<< i), true) := by
  simp only [Chip.flashRead, herased, readSyndrome_pattern hchk hdata, readParity_pattern hchk hdata, hodd, hpos,
    Bool.false_eq_true, if_false, if_true]
  rw [hdata]

/-- An even pattern reads as it is stored when its syndrome is 0, and not at all otherwise. -/
theorem flashRead_evenPattern (heven : natParity 64 x.toNat = false) :
    c.flashRead a = if eccSyndrome x = 0 then some (d ^^^ x, false) else none := by
  simp only [Chip.flashRead, herased, readSyndrome_pattern hchk hdata, readParity_pattern hchk hdata, heven,
    Bool.false_eq_true, if_false]
  rw [hdata]

end Pattern

/-! Patterns of one and of two bits. -/

/-- A power of two among the low bits makes their parity odd. -/
theorem natParity_two_pow {n i : Nat} (hi : i < n) : natParity n (2 ^ i) = true := by
  induction n generalizing i with
  | zero => omega
  | succ n ih =>
    cases i with
    | zero => simp [natParity, natParity_zero]
    | succ i => simp [natParity, Nat.pow_succ, ih (by omega : i < n)]

/-- One bit is an odd pattern. -/
theorem natParity_oneBit {i : Nat} (hi : i < 64) : natParity 64 (1#64 <<< i).toNat = true := by
  rw [← BitVec.twoPow_eq, BitVec.toNat_twoPow_of_lt hi]
  exact natParity_two_pow hi

/-- A fold that keeps no position leaves what it began with. -/
theorem foldl_xor_mapIdx_zero (l : List Nat) (a : Nat) : (l.mapIdx fun _ _ => 0).foldl Nat.xor a = a := by
  induction l with
  | nil => rfl
  | cons p l ih =>
    have hacc : Nat.xor a 0 = a := Nat.xor_zero a
    rw [List.mapIdx_cons, List.foldl_cons, hacc, ih]

/-- A fold that keeps one position gives the number there. -/
theorem foldl_xor_mapIdx_single (l : List Nat) {i : Nat} (hi : i < l.length) :
    (l.mapIdx fun k p => if i = k then p else 0).foldl Nat.xor 0 = l[i] := by
  induction l generalizing i with
  | nil => exact absurd hi (Nat.not_lt_zero i)
  | cons p l ih =>
    rw [List.mapIdx_cons, List.foldl_cons]
    cases i with
    | zero =>
      simp only [Nat.right_eq_add, Nat.succ_ne_zero, if_true, if_false]
      exact (foldl_xor_mapIdx_zero l _).trans (Nat.zero_xor p)
    | succ i =>
      simp only [Nat.add_right_cancel_iff, Nat.succ_ne_zero, if_false]
      exact ih (Nat.lt_of_succ_lt_succ hi)

/-- There is a code position for each of the 64 bits. -/
theorem codePos_length : codePos.length = 64 := by decide

/-- No two bits share a code position. -/
theorem codePos_nodup : codePos.Nodup := List.nodup_range.filter _

/-- The syndrome of one bit is its code position. -/
theorem eccSyndrome_oneBit {i : Nat} (hi : i < codePos.length) : eccSyndrome (1#64 <<< i) = codePos[i] := by
  have hbit : ∀ k, (1#64 <<< i).getLsbD k = decide (i = k) := fun k => by
    rw [← BitVec.twoPow_eq, BitVec.getLsbD_twoPow, decide_eq_true (codePos_length ▸ hi), Bool.true_and]
  simp only [eccSyndrome, hbit, decide_eq_true_eq]
  exact foldl_xor_mapIdx_single codePos hi

/-- The bit found at the code position of one bit is that bit. -/
theorem findIdx_syndrome_oneBit {i : Nat} (hi : i < 64) :
    codePos.findIdx? (· = eccSyndrome (1#64 <<< i)) = some i := by
  rw [← codePos_length] at hi
  rw [List.findIdx?_eq_some_iff_getElem]
  refine ⟨hi, decide_eq_true (eccSyndrome_oneBit hi).symm, fun j hj => ?_⟩
  rw [decide_eq_true_eq, eccSyndrome_oneBit hi, List.getElem_inj codePos_nodup]
  exact Nat.ne_of_lt hj

/-- Two different bits have different code positions, so their pattern's syndrome is not 0. -/
theorem eccSyndrome_twoBits {i j : Nat} (hi : i < 64) (hj : j < 64) (hij : i ≠ j) :
    eccSyndrome (1#64 <<< i ^^^ 1#64 <<< j) ≠ 0 := by
  rw [← codePos_length] at hi hj
  rw [eccSyndrome_xor, eccSyndrome_oneBit hi, eccSyndrome_oneBit hj]
  intro hzero
  have heq := xor_cancel_left codePos[i] codePos[j]
  rw [hzero, Nat.xor_zero, List.getElem_inj codePos_nodup] at heq
  exact hij heq

/-- Two bits are an even pattern. -/
theorem natParity_twoBits {i j : Nat} (hi : i < 64) (hj : j < 64) :
    natParity 64 (1#64 <<< i ^^^ 1#64 <<< j).toNat = false := by
  rw [BitVec.toNat_xor, natParity_xor, natParity_oneBit hi, natParity_oneBit hj]
  rfl

end Sys2Proof.Machine
end

section
/-! CERTIFICATE. The statement of chapter 15 on the flash code. -/

namespace Sys2Proof.Certificates

open Sys2Proof.Machine Sys2Proof.Claims

/-- Settles O48: a read sees the syndrome and the parity of the wrong bits alone, and these are even and 0 for none, odd
and the bit's position for one, even and not 0 for two. -/
theorem flashCode : Obligations.flash_code := by
  unfold Obligations.flash_code
  refine fun c a d herased hchk => ⟨fun hdata => ?stored, fun i hi hdata => ?oneWrong,
    fun i j hi hj hij hdata => ?twoWrong⟩
  case stored =>
    have hzero : c.flashData a = d ^^^ 0#64 := by rw [hdata, BitVec.xor_zero]
    rw [flashRead_evenPattern hchk hzero herased (natParity_zero 64), if_pos eccSyndrome_zero, BitVec.xor_zero]
  case oneWrong =>
    rw [flashRead_oddPattern hchk hdata herased (natParity_oneBit hi) (findIdx_syndrome_oneBit hi),
      BitVec.xor_assoc, BitVec.xor_self, BitVec.xor_zero]
  case twoWrong =>
    rw [BitVec.xor_assoc] at hdata
    rw [flashRead_evenPattern hchk hdata herased (natParity_twoBits hi hj), if_neg (eccSyndrome_twoBits hi hj hij)]

end Sys2Proof.Certificates
end

section
/-! CERTIFICATE. The statement of chapter 0 on a step, and that on the words which chapters 12 and 13 write out. -/

namespace Sys2Proof.Certificates

open Sys2Proof.Machine

/-- Settles O1: what a step does where a command waits is its own definition's second case. -/
theorem stepRunsFront : Obligations.step_runs_front := by
  unfold Obligations.step_runs_front
  exact fun _ _ _ => rfl

/-- Settles O60: each word by decoding it. -/
theorem writtenOutWordsDecode : Obligations.written_out_words_decode := by
  unfold Obligations.written_out_words_decode
  exact ⟨by decide, by decide, by decide, by decide, by decide⟩

end Sys2Proof.Certificates
end

section
/-! SUPPORT. Reads of TWB0 (R513, R515), and a window read while the block at the cursor is down (R50, R526). -/

namespace Sys2Proof.Machine

open Sys2Proof.Claims

variable {c : Chip}

/-- A command's end leaves TWB0's answer. -/
@[simp] theorem settle_reply (c : Chip) : c.settle.twb0.reply = c.twb0.reply :=
  (congrArg (·.twb0.reply) (settle_still c) :)

/-- A read whose page is taken and whose source is available is answered with what it reads. -/
theorem pmbus_read (hready : BusReady c) {p : PmCmd} {f : Chip → Option (List Byte × Chip)} {d : List Byte} {c' : Chip}
    (hpage : p.pageOk (active c) = true) (hread : p.read = some f) (hf : f (active c) = some (d, c')) :
    c.pmbus p .read = { c' with twb0.reply := (active c).readAnswer p d } := by
  have hactive : { c.busActive with twb0.nacked := false, twb0.reply := [] } = active c := rfl
  simp [Chip.pmbus, hready.up, hready.on, hready.awake, hactive, hpage, hread, hf]

/-- A read of a register whose domain is unpowered or held in reset is a bus error (R50). -/
theorem busRead_down (m : Master) {a : Nat} (n : Nat) (hb : inBlock a = true) (hdown : c.up (blockDom a) = false) :
    c.busRead m a n = (none, c.busErrors m a) := by
  have hgrant : c.regGrant m a n true = false := by simp [Chip.regGrant, hdown]
  rw [Chip.busRead, if_pos hb, hgrant, if_neg Bool.false_ne_true]

/-- So a window read at the cursor answers all ones (R526). -/
theorem winRead_down (n : Nat) (hb : inBlock c.twb0.winCur = true) (hdown : c.up (blockDom c.twb0.winCur) = false) :
    (c.winRead (n + 1)).1 = List.replicate (4 * (n + 1)) 0xFF := by
  have hnone : (if c.winRange c.twb0.winCur then c.busRead .window c.twb0.winCur 4
      else (none, c.busErrors .window c.twb0.winCur)) = (none, c.busErrors .window c.twb0.winCur) := by
    rw [busRead_down _ _ hb hdown, ite_self]
  rw [Chip.winRead, hnone]

/-- MFR_WIN_DATA, read at a register whose domain is down, answers as many bytes as are asked for, all ones. -/
theorem mfrWinData_read_down {s : State} {n : Nat} (hready : BusReady s.chip) (hcount : s.chip.twb0.winCnt = n + 1)
    (hb : inBlock s.chip.twb0.winCur = true) (hdown : s.chip.up (blockDom s.chip.twb0.winCur) = false) :
    ∃ t, exec (.mfrWinData .read) s = .next t ∧
      t.chip.twb0.reply = s.chip.readAnswer pmWinData (List.replicate (4 * (n + 1)) 0xFF) := by
  have hones : ((active s.chip).winRead s.chip.twb0.winCnt).1 = List.replicate (4 * (n + 1)) 0xFF :=
    hcount ▸ winRead_down (c := active s.chip) n hb hdown
  refine ⟨s.after (s.chip.pmbus pmWinData .read), rfl, ?_⟩
  rw [after_chip, settle_reply, pmbus_read (p := pmWinData) hready rfl rfl rfl]
  exact congrArg (s.chip.readAnswer pmWinData) hones

end Sys2Proof.Machine
end

section
/-! CERTIFICATE. The statement of chapter 17 on PMBus reads: its clause on MFR_WIN_DATA asks for AON, but DEVID is a
register of SYS, whose domain is SUP (Table 1.12), and SUP can be held in reset while IFC answers (R96). -/

namespace Sys2Proof.Certificates

open Sys2Proof.Machine Sys2Proof.Claims

/-- A booted part with every domain powered, TWB0 enabled, and the window and its cursor on DEVID, one word a read. -/
def windowOnDevid : Chip :=
  { pwr := { vinMv := 3300, vinGood := true, vioGood := true, boot := .done, cur := .standby, stage := 4, wdtRun := true,
             powered := ⟨true, true, true, true, true, true, true, true, true, true⟩ },
    regs := [(Reg.twbctl, 1), (Reg.winlo, word Reg.devid), (Reg.winhi, word Reg.devid)],
    twb0 := { winCnt := 1, winCur := Reg.devid } }

/-- That part where its supervisor's watchdog has just expired: SUP is held in reset, IFC is not (R92, R96). -/
def restarting : State := State.after ⟨windowOnDevid, []⟩ windowOnDevid.watchdogExpiry

/-- It is the next state of WATCHDOG_EXPIRY. -/
theorem exec_watchdogExpiry_windowOnDevid : exec .watchdogExpiry ⟨windowOnDevid, []⟩ = .next restarting := rfl

/-- Refutes O54: while the supervisor restarts, the read of DEVID answers four bytes of ones, not DEVID's own. -/
theorem not_pmbusReads : ¬ Obligations.pmbus_reads := by
  unfold Obligations.pmbus_reads
  intro h
  have hready : BusReady restarting.chip := ⟨by decide +kernel, by decide +kernel, by decide +kernel⟩
  have hinv : restarting.chip.Inv :=
    ⟨by decide +kernel, by decide +kernel, by decide +kernel, by decide +kernel, by decide +kernel, by decide +kernel,
      by decide +kernel, by decide +kernel⟩
  have hdevid : restarting.chip.twb0.winCur = Reg.devid := by decide +kernel
  have hdown : restarting.chip.up (blockDom restarting.chip.twb0.winCur) = false := by decide +kernel
  obtain ⟨-, -, -, -, -, -, hwindow, -⟩ := h restarting hready hinv
  obtain ⟨t, hexec, -, hreply⟩ := hwindow (by decide +kernel) (by decide +kernel) hdevid (by decide +kernel)
    (by decide +kernel)
  obtain ⟨t', hexec', hones⟩ := mfrWinData_read_down (n := 0) hready (by decide +kernel) (hdevid ▸ rfl) hdown
  obtain rfl : t = t' := by injection hexec.symm.trans hexec'
  have hvalue : restarting.chip.regRead .window Reg.devid = 0x12800201 := by decide +kernel
  rw [hones, hvalue] at hreply
  have hfirst := congrArg (·[1]?) hreply
  exact absurd hfirst (by decide)

end Sys2Proof.Certificates
end
